-- ==== Sys2Proof/Word.lean ====
section
/-!
DEFINITION. The three word types of the LFSR-XOR core and the rule's bit index on the packed state.
-/

namespace Sys2Proof

/-- A byte, a value 0 to 255; bit 0 is the least significant (R3, R8). -/
abbrev Byte := BitVec 8

/-- A command word `cmd[10:0]` (R45). -/
abbrev CmdWord := BitVec 11

/-- A nine-bit LFSR state in the packed form `SVAL` of R5: `S[0]`, the head, is the most significant bit
and `S[8]`, the tail, the least (log 1). -/
abbrev Lfsr := BitVec 9

end Sys2Proof
end

