-- ==== Sys2Proof/Machine/Engine.lean ====
section
/-!
DEFINITION. The LFSR engine's pure functions: SeedBits (R60), Feedback (R64), Step (R65), its inverse (R67)
and StepN (R69).
-/

namespace Sys2Proof.Machine

/-- `S[k]`, the bit at the source's index `k`: index 0 the head, index 8 the tail (R5). -/
def bitAt (v : Lfsr) (k : Nat) : Bool := v.getMsbD k

/-- The state with the digits of a list, `S[k]` the digit at position `k` (R5). -/
def ofDigits (ds : List Bool) : Lfsr :=
  BitVec.ofNat 9 ((List.range 9).foldl (fun acc k => 2 * acc + (ds.getD k false).toNat) 0)

/-- The binary digits of a byte, most significant first, without leading zeros (R60). -/
def binaryDigits (i : Byte) : List Bool :=
  ((List.range 8).map fun k => i.getMsbD k).dropWhile fun d => !d

/-- `bitlen(i)`, the number of binary digits without leading zeros (R8). -/
def bitlen (i : Byte) : Nat := (binaryDigits i).length

/-- `SeedBits(i)` of R60: the digits, right-padded with zeros to nine, the first nine taken. The rule defines it for
`1 <= i <= 255` only and nothing evaluates it at 0 (log 11). -/
def seedBits (i : Byte) : Lfsr :=
  ofDigits ((binaryDigits i ++ List.replicate (9 - bitlen i) false).take 9)

/-- The tap positions, fixed (R3, R64). -/
def taps : List Nat := [0, 5, 7, 8]

/-- `Feedback(S)`: the sum mod 2 of the tapped bits, the new head bit (R64). -/
def feedback (v : Lfsr) : Bool := taps.foldl (fun acc k => acc ^^ bitAt v k) false

/-- `Step(S)`: the new head is the feedback, `S'[k] = S[k-1]` for `k = 1..8`, the old tail is dropped (R65). -/
def lfsrStep (v : Lfsr) : Lfsr := BitVec.cons (feedback v) (v.extractLsb' 1 8)

/-- `StepN(S, n)`: Step applied `n` times (R69). -/
def stepN (v : Lfsr) : Nat → Lfsr
  | 0 => v
  | n + 1 => lfsrStep (stepN v n)

/-- `Unstep(T)`: the inverse of Step; no command performs it (R67). -/
def unstep (t : Lfsr) : Lfsr :=
  t.extractLsb' 0 8 ++ BitVec.ofBool (bitAt t 0 ^^ bitAt t 1 ^^ bitAt t 6 ^^ bitAt t 8)

end Sys2Proof.Machine
end

