-- ==== Sys2Proof/Machine/Datapath.lean ====
section
/-!
DEFINITION. The encryption datapath's pure functions: Sign and Magnitude (R75), Key (R76), its gate-level form
(R77) and the XOR (R79).
-/

namespace Sys2Proof.Machine

/-- `Sign(S)`: `(-1)^S[0]` (R75). -/
def sign (v : Lfsr) : Int := if bitAt v 0 then -1 else 1

/-- `Magnitude(S)`: the sum over `x = 0..7` of `(2*S[x+1])^x`, with `0^0 = 1` (R6, R75). -/
def magnitude (v : Lfsr) : Nat :=
  ((List.range 8).map fun x => (2 * (bitAt v (x + 1)).toNat) ^ x).sum

/-- The modulus of the key, "not 256" (R3, R76). -/
def keyModulus : Int := 255

/-- `Key(S) = (Sign(S) * Magnitude(S)) mod 255`, the non-negative residue, 0..254 (R6, R76). -/
def key (v : Lfsr) : Byte :=
  BitVec.ofNat 8 ((sign v * (magnitude v : Int)) % keyModulus).toNat

/-- The byte `m = {S[8], S[7], S[6], S[5], S[4], S[3], S[2], 1}`, leftmost bit 7 (R77). -/
def keyByte (v : Lfsr) : Byte :=
  BitVec.ofBool (bitAt v 8) ++ BitVec.ofBool (bitAt v 7) ++ BitVec.ofBool (bitAt v 6) ++ BitVec.ofBool (bitAt v 5)
    ++ BitVec.ofBool (bitAt v 4) ++ BitVec.ofBool (bitAt v 3) ++ BitVec.ofBool (bitAt v 2) ++ (1 : BitVec 1)

/-- The gate-level form of Key (R77). -/
def keyGate (v : Lfsr) : Byte :=
  if bitAt v 0 then ~~~ keyByte v
  else if keyByte v = 0xFF then 0x00
  else keyByte v

/-- `p xor Key(S)`, an 8-bit exclusive or (R37, R79). -/
def encrypted (p : Byte) (v : Lfsr) : Byte := p ^^^ key v

end Sys2Proof.Machine
end

