-- ==== Sys2Proof/Config.lean ====
section
/-!
DEFINITION. What the spec leaves to the implementation. The parameters of R4 (`L`, `PT`, `RND`) are plain data
of State, so that every claim holds for all of them; `IDXW` is not needed, since R4 lets a model count `IDX`
with an unbounded natural. What is left is the one register whose reset value R22 calls unspecified. No free
value is needed: no rule gives an instruction a result that is undefined.
-/

namespace Sys2Proof.Config

/-- `OUT` after reset. R22 calls it unspecified ("any 8-bit value"), and no rule reads `OUT` before writing it.
DESIGN CHOICE, unsafe: the model names 0x00 (log 3). No statement rests on it. -/
def outAfterReset : Byte := 0x00

end Sys2Proof.Config
end

