-- ==== Sys2Proof/Syntax.lean ====
section
/-!
DEFINITION. The instructions: one constructor for each of the five rows of the opcode table (R46),
and the two raw fields of a command word (R45).
-/

namespace Sys2Proof

/-- The five commands (R46). -/
inductive Instr where
  /-- `INIT i`: seed the core from the byte `i`; 0 means "unset" (R47, R62). -/
  | init (i : Byte)
  /-- `STEP`: one LFSR step (R66). -/
  | step
  /-- `ADV`: draw a count and step that many times (R80). -/
  | adv
  /-- `ENCB p`: encrypt the plaintext byte `p` (R79). -/
  | encb (p : Byte)
  /-- `RUN`: the whole encryption procedure over the plaintext store (R81). -/
  | run
deriving DecidableEq, Repr

/-- The two fields of a command word, before anything is known of them (R45). -/
structure CommandFields where
  /-- `cmd[10:8]` -/
  op : BitVec 3
  /-- `cmd[7:0]` -/
  imm : Byte
deriving DecidableEq, Repr

/-- The ways a command word can be reserved, one for each row of the table in R48. -/
inductive Reserved where
  /-- `op = 001` with `imm != 0`: STEP has no operand. -/
  | stepOperand
  /-- `op = 010` with `imm != 0`: ADV has no operand. -/
  | advOperand
  /-- `op = 100` with `imm != 0`: RUN has no operand. -/
  | runOperand
  /-- `op` is 5, 6 or 7: no operation assigned. -/
  | unassignedOp
deriving DecidableEq, Repr

/-- What decoding a word gives (R49): one of the five commands, or "reserved" with the reason. -/
inductive Decoded where
  | command (i : Instr)
  | reserved (why : Reserved)
deriving DecidableEq, Repr

end Sys2Proof
end

