-- ==== Sys2Proof/Machine/State.lean ====
section
/-!
DEFINITION. The state of the core: the ten registers of R21, the environment state a model must carry (R23) and
the request lines the environment drives; the reasons a step can stop; and the state after reset (R22, R125).
-/

namespace Sys2Proof.Machine

/-- The sequencer phase `PH` (R15, R95). -/
inductive Phase where
  /-- No command in progress; a command can be accepted. -/
  | idle
  /-- Waiting to draw a seed byte (the redraw loop). -/
  | seedw
  /-- Waiting to draw a step count. -/
  | cntw
  /-- Stepping while `CNT != 0`. -/
  | steps
  /-- Inside RUN: encrypting plaintext byte `IDX`. -/
  | enc
  /-- A fault was taken; only reset leaves this phase. -/
  | halt
deriving DecidableEq, Repr

/-- The two synchronous faults the core itself raises (R110). Taking one is a NEXT state (R112). -/
inductive Cause where
  /-- The accepted word is one of the 1533 reserved encodings. -/
  | reservedCommand
  /-- STEP, ADV or ENCB with `SEEDED = 0`. -/
  | notSeeded
deriving DecidableEq, Repr

/-- The stops of the model itself. -/
inductive Fault where
  /-- Raised by whatever reads `S` (a STEP or ENCB command, a step or an encryption inside a longer command) when `S`
  holds no value although `SEEDED` or the phase says it does. Safe: R17 rules such a state out (`SEEDED = 1`
  exactly when `S` holds a value), no run reaches one, and the spec gives it no meaning (log 2). -/
  | lfsrAbsent
deriving DecidableEq, Repr

/-- What the model gives no meaning to. -/
inductive Refusal where
  /-- An instruction that has no meaning in `exec` yet, by its mnemonic. No arm uses it. Safe. -/
  | notModelled (mnemonic : String)
  /-- Raised by the transition of phase `ENC` when `IDX >= L`. Safe: the sequencer never issues such a read and a model
  "need give it none" (R33, U7); the invariant rules it out (log 12). -/
  | ptOutOfRange
deriving DecidableEq, Repr

/-- The state of the core and of the channels at its edge. -/
structure State where
  /-- `S`, the LFSR state; absent from reset until the first seed load (R10, R22). -/
  lfsr : Option Lfsr
  /-- `SEED`, the stored seed; absent from reset until the first seed load (R11, R22). -/
  seed : Option Lfsr
  /-- `SEEDED`: `S` and `SEED` hold a value (R17). -/
  seeded : Bool
  /-- `OUT`, the output byte register (R12). -/
  out : Byte
  /-- `CNT`, the steps still to take in the current burn or advance (R13). -/
  cnt : Byte
  /-- `IDX`, the index of the next plaintext byte of a RUN (R14; an unbounded natural, as R4 allows, log 10). -/
  idx : Nat
  /-- `PH`, the sequencer phase (R15). -/
  ph : Phase
  /-- `RUNM`: a RUN is in progress (R16). -/
  runm : Bool
  /-- `ERR`, sticky (R17). -/
  err : Bool
  /-- `CAUSE`, the code of the fault taken (R17, R111). -/
  cause : BitVec 2
  /-- `CMD`: the words offered by the host and not yet accepted, in the order offered (R31, log 6). -/
  cmd : List CmdWord
  /-- `PT`, the plaintext; its length is `L` (R23, R32, log 5). -/
  pt : List Byte
  /-- `RND`: the random tape as far as the source has offered it, from the first byte on (R35, R36, log 4). -/
  rnd : List Byte
  /-- `RP`: the draws made so far (R23, R35). -/
  rp : Nat
  /-- `CT`: the ciphertext history, oldest first (R23, R34). -/
  ct : List Byte
  /-- Whether the ciphertext consumer accepts a byte (R117, port `ct_ready` of R55, log 9). -/
  ctReady : Bool
  /-- Whether a reset has been asked for (R126, port `rst` of R55, log 8). -/
  rst : Bool
deriving DecidableEq, Repr

/-- The outcome of one step of this machine. -/
abbrev Result := Host.Outcome State Fault Refusal

/-- The machine right after reset (R22, R125), at the start of a model run: `CT` empty and `RP = 0`. The channels at its
edge hold nothing yet: no command, random byte or plaintext offered, the consumer ready (log 4, 5, 6, 8, 9). -/
def State.reset : State where
  lfsr := none
  seed := none
  seeded := false
  out := Config.outAfterReset
  cnt := 0
  idx := 0
  ph := .idle
  runm := false
  err := false
  cause := 0
  cmd := []
  pt := []
  rnd := []
  rp := 0
  ct := []
  ctReady := true
  rst := false

end Sys2Proof.Machine
end

