-- ==== Sys2Proof/Machine/Flags.lean ====
section
/-!
DEFINITION. The status flags: cause codes (R111), BUSY (R17) and the status word (R50). There are no arithmetic flags
(R17).
-/

namespace Sys2Proof.Machine

/-- The cause codes of R111; 0 is "no fault" and 3 is never written. -/
def causeCode : Cause → BitVec 2
  | .reservedCommand => 1
  | .notSeeded => 2

/-- The phases in which a multi-step command is in progress (R17, R95). -/
def phaseBusy : Phase → Bool
  | .idle => false
  | .seedw => true
  | .cntw => true
  | .steps => true
  | .enc => true
  | .halt => false

/-- `BUSY`, not a register: derived from `PH` (R17). -/
def State.busy (s : State) : Bool := phaseBusy s.ph

/-- `STATUS`: `[4:3]` CAUSE, `[2]` ERR, `[1]` BUSY, `[0]` SEEDED (R50). -/
def State.status (s : State) : BitVec 5 :=
  s.cause ++ BitVec.ofBool s.err ++ BitVec.ofBool s.busy ++ BitVec.ofBool s.seeded

end Sys2Proof.Machine
end

