-- ==== Sys2Proof/Machine/Operands.lean ====
section
/-!
DEFINITION. The one operand form of the command set: `imm`, an unsigned byte taken as it stands (R47), and the
meaning of a zero operand of INIT. No command names a register, an address or a mode (R45, R54).
-/

namespace Sys2Proof.Machine

/-- `INIT` with `imm = 0` stands for both the value 0 and "unset" (R47, D6). -/
def isUnset (imm : Byte) : Bool := imm == 0

end Sys2Proof.Machine
end

