-- ==== Sys2Proof/Machine/Ops.lean ====
section
/-!
DEFINITION. The named operations on the state: the primitives of the pseudocode (`00_scope.md` §5.3), taking a fault
(R112), reset (R125, R126), and the two checks a command makes before it acts. Every write of the sequencer
goes through one of these.
-/

namespace Sys2Proof.Machine

/-- The command at the head of CMD is accepted: a word is consumed exactly once, in the order offered (R31). -/
def State.consumeCommand (s : State) : State := { s with cmd := s.cmd.tail }

/-- `PH <- phase` (R95). -/
def State.enterPhase (s : State) (p : Phase) : State := { s with ph := p }

/-- The seed load: `S <- SeedBits(v)`, `SEED <- SeedBits(v)`, `SEEDED <- 1`, all together (R11, R62, R97). -/
def State.seedLoad (s : State) (v : Byte) : State :=
  { s with lfsr := some (seedBits v), seed := some (seedBits v), seeded := true }

/-- `S <- v`, all nine bits together (R10); the only caller writes `Step(S)` (R19). -/
def State.setLfsr (s : State) (v : Lfsr) : State := { s with lfsr := some v }

/-- `CNT <- n` (R13). -/
def State.setCnt (s : State) (n : Byte) : State := { s with cnt := n }

/-- `CtPush(v)`: `CT <- CT ++ [v]` (R34). -/
def State.ctPush (s : State) (v : Byte) : State := { s with ct := s.ct ++ [v] }

/-- `OUT <- v; CtPush(OUT)`, the writes of the action `EncByte` (R12, R79). -/
def State.emit (s : State) (v : Byte) : State := ({ s with out := v } : State).ctPush v

/-- `IDX <- IDX + 1` (R14). -/
def State.bumpIdx (s : State) : State := { s with idx := s.idx + 1 }

/-- `RUNM <- 1; IDX <- 0` (R14, R16, R81). -/
def State.beginRun (s : State) : State := { s with runm := true, idx := 0 }

/-- `RUNM <- 0` (R16, R81). -/
def State.endRun (s : State) : State := { s with runm := false }

/-- The byte the random port offers: `RND[RP]`, or none while the source has not offered it (R35, R117). -/
def State.offeredRandom (s : State) : Option Byte := s.rnd[s.rp]?

/-- `RP <- RP + 1`: the offered byte is consumed (R35). -/
def State.consumeRandom (s : State) : State := { s with rp := s.rp + 1 }

/-- `PtRead(idx)`: `PT[idx]` for `idx < L`, no side effect; out of range it has no meaning (R33). -/
def State.ptRead (s : State) (idx : Nat) : Option Byte := s.pt[idx]?

/-- Taking a fault, `raise Fault(c)`: `ERR <- 1`, `CAUSE <- code(c)`, `PH <- HALT`, and nothing else (R112, R113).
There is no return from it but reset (R115). -/
def State.raiseFault (s : State) (c : Cause) : State := { s with err := true, cause := causeCode c, ph := .halt }

/-- Reset, in any phase: the registers take the values of R22, and what has left or entered the core (CT, RP) stays
(R125, R126). The offered words, the tape, the plaintext and the consumer are the environment's and stay (log 18). The
request is taken back (log 8). -/
def State.applyReset (s : State) : State :=
  { State.reset with
    cmd := s.cmd, pt := s.pt, rnd := s.rnd, rp := s.rp, ct := s.ct, ctReady := s.ctReady, rst := false }

/-- STEP, ADV and ENCB fault `NotSeeded` when `SEEDED = 0`, before they have any effect; the word is consumed
(R96, R110, R112, R113). -/
def State.requireSeeded (s : State) (go : Result) : Result :=
  if s.seeded then go else .next (s.consumeCommand.raiseFault .notSeeded)

/-- Reading `S`. Where it holds no value the model stops (log 2). -/
def State.readLfsr (s : State) (go : Lfsr → Result) : Result :=
  match s.lfsr with
  | none => .fault .lfsrAbsent
  | some v => go v

/-- A push waits until the consumer accepts the byte: the whole transition happens then, and until then nothing
changes (R117). -/
def State.whenConsumerReady (s : State) (t : State) : Result :=
  if s.ctReady then .next t else .next s

/-- A draw waits until the random port offers a byte; the byte is consumed with the transition that uses it
(R35, R117). -/
def State.whenRandomOffered (s : State) (use : Byte → State → State) : Result :=
  match s.offeredRandom with
  | none => .next s
  | some r => .next (use r s.consumeRandom)

end Sys2Proof.Machine
end

