-- ==== Sys2Proof/Machine/EncryptionCommands.lean ====
section
/-!
DEFINITION. The commands of the encryption datapath, ENCB (R79), ADV (R80) and RUN (R81), as the transition that accepts
them in `IDLE` (R96).
-/

namespace Sys2Proof.Machine

/-- `ADV`: enters the draw of the step count; `NotSeeded` when `SEEDED = 0`, before the draw (R80, R96, R113). -/
def execAdv (s : State) : Result :=
  s.requireSeeded <| .next (s.consumeCommand.enterPhase .cntw)

/-- `ENCB p`: `OUT <- p xor Key(S)`, pushed; `NotSeeded` when `SEEDED = 0`. The whole transition, the acceptance of the
word included, waits for the ciphertext consumer (R79, R96, R117; log 17). -/
def execEncb (p : Byte) (s : State) : Result :=
  s.requireSeeded <| s.readLfsr fun v =>
    s.whenConsumerReady ((s.consumeCommand.emit (encrypted p v)).enterPhase .idle)

/-- `RUN`: `RUNM <- 1`, `IDX <- 0`, then the seed draw. Never `NotSeeded`: a RUN seeds itself (R81, R96). -/
def execRun (s : State) : Result := .next (s.consumeCommand.beginRun.enterPhase .seedw)

end Sys2Proof.Machine
end

