-- ==== Sys2Proof/Machine/EngineCommands.lean ====
section
/-!
DEFINITION. The commands of the LFSR engine, INIT (R62) and STEP (R66), as the transition that accepts them in `IDLE`
(R96).
-/

namespace Sys2Proof.Machine

/-- `INIT i`: for `i != 0` the seed load at once; for 0, "unset", the redraw loop of phase `SEEDW` (R62, R63, R96).
Never faults; on a seeded core the old state is discarded (R133). -/
def execInit (i : Byte) (s : State) : Result :=
  if isUnset i then .next (s.consumeCommand.enterPhase .seedw)
  else .next ((s.consumeCommand.seedLoad i).enterPhase .idle)

/-- `STEP`: `S <- Step(S)`; `NotSeeded` when `SEEDED = 0` (R66, R96). -/
def execStep (s : State) : Result :=
  s.requireSeeded <| s.readLfsr fun v => .next ((s.consumeCommand.setLfsr (lfsrStep v)).enterPhase .idle)

end Sys2Proof.Machine
end

