-- ==== Sys2Proof/Machine/Dispatch.lean ====
section
/-!
DEFINITION. One arm for each command: the transition that accepts it in `IDLE` (R96).
-/

namespace Sys2Proof.Machine

/-- What accepting a decoded command does (R96). -/
def exec (i : Instr) (s : State) : Host.Outcome State Fault Refusal :=
  match i with
  | .init i0 => Sys2Proof.Machine.execInit i0 s
  | .step => Sys2Proof.Machine.execStep s
  | .adv => Sys2Proof.Machine.execAdv s
  | .encb p => Sys2Proof.Machine.execEncb p s
  | .run => Sys2Proof.Machine.execRun s

end Sys2Proof.Machine
end

