-- ==== Sys2Proof/WellFormed.lean ====
section
/-!
DEFINITION. The checks a command must meet: the operand's range (R47, R52) and the assigned operation
codes with a zero operand field where the command has no operand (R48).
-/

namespace Sys2Proof

/-- An operand written as a number must be a byte: "An operand outside 0..255 is an assembly error" (R52). -/
def operandInRange (n : Nat) : Bool := decide (n ≤ 255)

/-- `op` is one of the five assigned codes (R46, R48). -/
def CommandFields.opAssigned (f : CommandFields) : Bool := decide (f.op.toNat ≤ 4)

/-- STEP, ADV and RUN have no operand: their `imm` is zero (R46, R48). -/
def CommandFields.operandAllowed (f : CommandFields) : Bool :=
  f.imm == 0 || f.op == 0 || f.op == 3 || !f.opAssigned

/-- The fields are those of a defined word, not of a reserved one (R48). -/
def CommandFields.wellFormed (f : CommandFields) : Bool := f.opAssigned && f.operandAllowed

/-- A command's operand is a byte (R47). The type of the operand already says so, so every command passes;
the range check itself refuses operands where they are still numbers, in the assembler. -/
def Instr.wellFormed : Instr → Bool
  | .init i => operandInRange i.toNat
  | .step => true
  | .adv => true
  | .encb p => operandInRange p.toNat
  | .run => true

end Sys2Proof
end

