-- ==== Sys2Proof/Decode.lean ====
section
/-!
DEFINITION. Decoding a command word, total on all 2048 words (R49), and the encoder, written from the
table of R46; the opcode table as data; and the host's numbering of a row's bits.
-/

namespace Sys2Proof

/-- The fields of a word: `op = cmd[10:8]`, `imm = cmd[7:0]` (R45). -/
def fieldsOf (w : CmdWord) : CommandFields :=
  { op := w.extractLsb' 8 3, imm := w.extractLsb' 0 8 }

/-- The word with the given fields: `{op, imm}`, `op` most significant (R45). -/
def wordOf (f : CommandFields) : CmdWord := f.op ++ f.imm

/-- The decoder of R49. Every word gives a command or is rejected by name. -/
def decode (w : CmdWord) : Decoded :=
  let f := fieldsOf w
  if f.op = 0 then .command (.init f.imm)
  else if f.op = 3 then .command (.encb f.imm)
  else if f.op = 1 then (if f.imm = 0 then .command .step else .reserved .stepOperand)
  else if f.op = 2 then (if f.imm = 0 then .command .adv else .reserved .advOperand)
  else if f.op = 4 then (if f.imm = 0 then .command .run else .reserved .runOperand)
  else .reserved .unassignedOp

/-- A command's fields (R46). -/
def fieldsOfInstr : Instr → CommandFields
  | .init i => { op := 0, imm := i }
  | .step => { op := 1, imm := 0 }
  | .adv => { op := 2, imm := 0 }
  | .encb p => { op := 3, imm := p }
  | .run => { op := 4, imm := 0 }

/-- The word of a command (R46, R52: `(op << 8) | imm`). -/
def encode (i : Instr) : CmdWord := wordOf (fieldsOfInstr i)

/-- The pseudo-instruction `INITR`, "initialise, random", which is `INIT 0` (R53). -/
def initr : Instr := .init 0

/-- A row of the opcode table of R46. -/
structure OpcodeRow where
  mask : CmdWord
  pattern : CmdWord
deriving DecidableEq, Repr

/-- The row of a command in the table of R46: its mask and its match. -/
def tableRow : Instr → OpcodeRow
  | .init _ => { mask := 0x700, pattern := 0x000 }
  | .step => { mask := 0x7FF, pattern := 0x100 }
  | .adv => { mask := 0x7FF, pattern := 0x200 }
  | .encb _ => { mask := 0x700, pattern := 0x300 }
  | .run => { mask := 0x7FF, pattern := 0x400 }

/-- "A word selects a command when `(cmd & mask) = match`" (R46). -/
def OpcodeRow.selects (r : OpcodeRow) (w : CmdWord) : Bool := w &&& r.mask == r.pattern

/-- The five rows of R46. -/
def opcodeTable : List OpcodeRow :=
  [tableRow (.init 0), tableRow .step, tableRow .adv, tableRow (.encb 0), tableRow .run]

/-- The command word whose bits are `w`, numbered from the least significant, given as a row of `nbits` bits.
A word port is 11 bits wide (R39, R45): a number with a bit above bit 10 is no command word (log 13). -/
def tableWord (nbits w : Nat) : Option CmdWord :=
  let v := w % 2 ^ nbits
  if v < 2048 then some (BitVec.ofNat 11 v) else none

/-- What the decoder reads from an instruction whose bits are `w` (the host's numbering of a table row). -/
def decodeTableWord (nbits w : Nat) : Option Instr :=
  match tableWord nbits w with
  | none => none
  | some c =>
    match decode c with
    | .command i => some i
    | .reserved _ => none

end Sys2Proof
end

