-- ==== Sys2Proof/Machine/Sequencer.lean ====
section
/-!
DEFINITION. The sequencer's transitions outside the acceptance of a command (R97 to R101), the offer of a command word
(R31), the acceptance of a reserved word (R48, R110) and the waits (R117). One definition is one
transition, and all its writes happen together. A wait leaves the state as it is (log 7).
-/

namespace Sys2Proof.Machine

/-- The word at the command port: the next word in arrival order (R30, R31). -/
def State.offeredCommand (s : State) : Option CmdWord := s.cmd.head?

/-- `IDLE` with no word offered: the core waits and keeps all its state (R117, R120). -/
def idleWait (s : State) : Result := .next s

/-- Accepting a reserved word: the fault `ReservedCommand` and no other effect; the word is consumed
(R48, R110, R112). -/
def acceptReserved (s : State) : Result := .next (s.consumeCommand.raiseFault .reservedCommand)

/-- One transition of `SEEDW`: draw; a zero is rejected and redrawn; a non-zero byte is the seed byte (R63, R97). -/
def seedDraw (s : State) : Result :=
  s.whenRandomOffered fun r t =>
    if r = 0 then t
    else (t.seedLoad r).enterPhase (if s.runm then .cntw else .idle)

/-- One transition of `CNTW`: `CNT <- RndDraw()` (R98). -/
def countDraw (s : State) : Result :=
  s.whenRandomOffered fun r t => (t.setCnt r).enterPhase .steps

/-- One transition of `STEPS`: a step while `CNT != 0`; then an ADV is complete, or the RUN goes to its next byte, or
the RUN is complete (R99). -/
def stepOrLeave (s : State) : Result :=
  if s.cnt ≠ 0 then s.readLfsr fun v => .next ((s.setLfsr (lfsrStep v)).setCnt (s.cnt - 1))
  else if s.runm = false then .next (s.enterPhase .idle)
  else if s.idx < s.pt.length then .next (s.enterPhase .enc)
  else .next (s.endRun.enterPhase .idle)

/-- One transition of `ENC`: `OUT <- PtRead(IDX) xor Key(S)`, pushed, `IDX <- IDX + 1`, then the advance (R100). It waits
for the ciphertext consumer (R117). -/
def encryptByte (s : State) : Result :=
  match s.ptRead s.idx with
  | none => .refused .ptOutOfRange
  | some p => s.readLfsr fun v =>
      s.whenConsumerReady (((s.emit (encrypted p v)).bumpIdx).enterPhase .cntw)

/-- `HALT`: no transition is enabled; `ERR` and `CAUSE` are held and no command is accepted (R101, R115). -/
def haltWait (s : State) : Result := .next s

end Sys2Proof.Machine
end

