-- ==== Sys2Proof/Machine/Step.lean ====
section
/-!
DEFINITION. One step of the machine is one transition of `42_sequencer.md`, or a reset (R126), or a wait (R117).
-/

namespace Sys2Proof.Machine

/-- One transition. A reset that has been asked for comes first, in any phase (R126; log 8). A command is accepted only in
`IDLE` (R31, R96, R103). -/
def step (s : State) : Host.Outcome State Fault Refusal :=
  if s.rst then .next s.applyReset
  else
    match s.ph with
    | .idle =>
      match s.offeredCommand with
      | none => idleWait s
      | some w =>
        match decode w with
        | .reserved _ => acceptReserved s
        | .command i => exec i s
    | .seedw => seedDraw s
    | .cntw => countDraw s
    | .steps => stepOrLeave s
    | .enc => encryptByte s
    | .halt => haltWait s

/-- The state with the instruction whose bits are `w` offered at the command port, ready to be accepted by the very next
step: the word is put first in CMD, the sequencer is in `IDLE` and no reset is asked for (log 6, 13). A number that is no
11-bit word is not offered. -/
def State.withFetchWord (s : State) (nbits w : Nat) : State :=
  match tableWord nbits w with
  | none => s
  | some c => { s with cmd := c :: s.cmd, ph := .idle, rst := false }

end Sys2Proof.Machine
end

