-- ==== Sys2Proof/Machine/Assembler.lean ====
section
/-!
DEFINITION. The assembler syntax of R52 and R53: one line of text to one command word. The line is a list of
characters. The spec names no toolchain; what R52 leaves open of the lexical form is in log 15.
-/

namespace Sys2Proof.Machine

/-- What one line assembles to. -/
inductive Assembled where
  /-- A command word. -/
  | word (w : CmdWord)
  /-- An empty line or a line with a comment only. -/
  | blank
  /-- No command of R52: an unknown mnemonic, a missing, malformed or superfluous operand, or one outside 0..255. -/
  | error
deriving DecidableEq, Repr

/-- The mnemonics of R52 and the pseudo-instruction of R53. -/
inductive Mnemonic where
  | init
  | step
  | adv
  | encb
  | run
  | initr
deriving DecidableEq, Repr

/-- "its mnemonic in capitals" (R52). -/
def mnemonicOf (name : List Char) : Option Mnemonic :=
  if name = ['I', 'N', 'I', 'T'] then some .init
  else if name = ['S', 'T', 'E', 'P'] then some .step
  else if name = ['A', 'D', 'V'] then some .adv
  else if name = ['E', 'N', 'C', 'B'] then some .encb
  else if name = ['R', 'U', 'N'] then some .run
  else if name = ['I', 'N', 'I', 'T', 'R'] then some .initr
  else none

/-- A blank between the parts of a line. -/
def isBlank (c : Char) : Bool := c == ' ' || c == '\t'

/-- A capital letter, of which mnemonics are made. -/
def isCapital (c : Char) : Bool := decide (65 ≤ c.toNat) && decide (c.toNat ≤ 90)

/-- Nothing is left on the line but blanks and a comment: "`;` starts a comment" (R52). -/
def lineEnds (cs : List Char) : Bool :=
  match cs.dropWhile isBlank with
  | [] => true
  | c :: _ => c == ';'

/-- The value of a digit in base 10 or 16. -/
def digitValue (base : Nat) (c : Char) : Option Nat :=
  let n := c.toNat
  if 48 ≤ n ∧ n ≤ 57 then some (n - 48)
  else if base = 16 ∧ 65 ≤ n ∧ n ≤ 70 then some (n - 55)
  else if base = 16 ∧ 97 ≤ n ∧ n ≤ 102 then some (n - 87)
  else none

/-- Digits read on from the value `acc` of those before, and what follows them. -/
def moreDigits (base acc : Nat) : List Char → Nat × List Char
  | [] => (acc, [])
  | c :: cs =>
    match digitValue base c with
    | none => (acc, c :: cs)
    | some d => moreDigits base (base * acc + d) cs

/-- A number of at least one digit, and what follows it. -/
def numberAt (base : Nat) (cs : List Char) : Option (Nat × List Char) :=
  match cs with
  | [] => none
  | c :: rest => (digitValue base c).map fun d => moreDigits base d rest

/-- An operand and what follows it: "a decimal number, a `0x` hexadecimal number or a single-quoted ASCII character" (R52). -/
def operandAt (cs : List Char) : Option (Nat × List Char) :=
  match cs with
  | '\'' :: c :: '\'' :: rest => if c.toNat < 128 then some (c.toNat, rest) else none
  | '0' :: 'x' :: ds => numberAt 16 ds
  | _ => numberAt 10 cs

/-- A command with an operand: a byte, then the end of the line. -/
def assembleOperand (command : Byte → Instr) (rest : List Char) : Assembled :=
  match rest with
  | [] => .error
  | c :: cs =>
    if isBlank c then
      match operandAt (cs.dropWhile isBlank) with
      | none => .error
      | some (n, tail) =>
        if operandInRange n && lineEnds tail then .word (encode (command (BitVec.ofNat 8 n))) else .error
    else .error

/-- A command without an operand: the end of the line. -/
def assemblePlain (command : Instr) (rest : List Char) : Assembled :=
  if lineEnds rest then .word (encode command) else .error

/-- One line of assembly (R52, R53). -/
def assemble (line : List Char) : Assembled :=
  let cs := line.dropWhile isBlank
  if lineEnds cs then .blank
  else
    let rest := cs.dropWhile isCapital
    match mnemonicOf (cs.takeWhile isCapital) with
    | none => .error
    | some .init => assembleOperand Instr.init rest
    | some .encb => assembleOperand Instr.encb rest
    | some .step => assemblePlain Instr.step rest
    | some .adv => assemblePlain Instr.adv rest
    | some .run => assemblePlain Instr.run rest
    | some .initr => assemblePlain Sys2Proof.initr rest

end Sys2Proof.Machine
end

