-- ==== Sys2Proof/Machine/Environment.lean ====
section
/-!
DEFINITION. What the environment may do to the core between two transitions: the four channels of R30, the consumer's
readiness (R117) and the request for a reset (R126). Nothing else outside the core reaches it (R116, R120).
-/

namespace Sys2Proof.Machine

/-- One action of the environment. -/
inductive EnvAction where
  /-- The host offers a command word (R31). -/
  | offerCommand (w : CmdWord)
  /-- The random source offers its next byte (R35, R36). -/
  | offerRandom (b : Byte)
  /-- The platform presents a plaintext (R32, R127). -/
  | presentPlaintext (p : List Byte)
  /-- The ciphertext consumer becomes ready, or ceases to be (R117). -/
  | setConsumerReady (ready : Bool)
  /-- A reset is asked for (R126). -/
  | requestReset
deriving DecidableEq, Repr

/-- The plaintext must not change from the acceptance of a RUN to its end; the spec says nothing of an environment
that changes it, and this model has none (R129, U4; log 16). Everything else is allowed at any time. -/
def envAllowed (a : EnvAction) (s : State) : Bool :=
  match a with
  | .offerCommand _ => true
  | .offerRandom _ => true
  | .presentPlaintext _ => !s.runm
  | .setConsumerReady _ => true
  | .requestReset => true

/-- The effect of an action of the environment. -/
def envAct (a : EnvAction) (s : State) : State :=
  match a with
  | .offerCommand w => { s with cmd := s.cmd ++ [w] }
  | .offerRandom b => { s with rnd := s.rnd ++ [b] }
  | .presentPlaintext p => { s with pt := p }
  | .setConsumerReady ready => { s with ctReady := ready }
  | .requestReset => { s with rst := true }

end Sys2Proof.Machine
end

