-- ==== Sys2Proof/Machine/Ports.lean ====
section
/-!
DEFINITION. The ports of R55 as functions of the state: what each of the four channels and the status word carries, and when a
transfer is possible. `step` does not read them; that its transfers are theirs is stated in `PortHandshakes`. `status` is in
`Flags.lean`, and the inputs `rst`, `ct_ready`, `pt_len` and the words and bytes offered are fields of State. Which
valid and ready values the untimed model gives is in log 14.
-/

namespace Sys2Proof.Machine

/-- The command is an ENCB, the one command whose acceptance needs the ciphertext consumer (R117). -/
def isEncb : Instr → Bool
  | .init _ => false
  | .step => false
  | .adv => false
  | .encb _ => true
  | .run => false

/-- The word at the command port is an ENCB that pushes when it is accepted: on an unseeded core it faults instead, and
pushes nothing (R96, R113; log 19). -/
def State.encbPushes (s : State) : Bool :=
  match s.offeredCommand with
  | none => false
  | some w =>
    match decode w with
    | .reserved _ => false
    | .command i => isEncb i && s.seeded

/-- Port `cmd_valid`: the host offers a word (R31, R55). -/
def State.cmdValid (s : State) : Bool := s.offeredCommand.isSome

/-- Port `cmd_ready`: the core accepts the offered word now. It is 1 only in `IDLE` (R55, R103), 0 while a reset is asked for
(log 8), and 0 while an ENCB waits for the ciphertext consumer, since such a word is not accepted yet (R117; log 17). -/
def State.cmdReady (s : State) : Bool :=
  decide (s.ph = .idle) && !s.rst && !(s.encbPushes && !s.ctReady)

/-- Port `rnd_valid`: the random source offers a byte (R35, R55). -/
def State.rndValid (s : State) : Bool := s.offeredRandom.isSome

/-- Port `rnd_ready`: the core takes a random byte, in `SEEDW` and `CNTW` (R55, R97, R98). -/
def State.rndReady (s : State) : Bool :=
  (decide (s.ph = .seedw) || decide (s.ph = .cntw)) && !s.rst

/-- Port `pt_idx` (R55). -/
def State.ptIdx (s : State) : Nat := s.idx

/-- Port `pt_len`: `L` (R55). -/
def State.ptLen (s : State) : Nat := s.pt.length

/-- Port `pt_data`: `PT[pt_idx]`, which has no meaning out of range (R33, R55). -/
def State.ptData (s : State) : Option Byte := s.ptRead s.ptIdx

/-- Port `ct_valid`: the core has a byte to push, in `ENC` and for an ENCB in `IDLE` (R55, R96, R100, R117). -/
def State.ctValid (s : State) : Bool :=
  (decide (s.ph = .enc) || decide (s.ph = .idle) && s.encbPushes) && !s.rst

/-- Port `ct`, driven from `OUT` (R55). A push writes `OUT` in the same transition (R117), so the byte pushed is the
one the port shows after it. -/
def State.ctPort (s : State) : Byte := s.out

end Sys2Proof.Machine
end

