-- ==== Sys2Proof/Machine/Procedure.lean ====
section
/-!
DEFINITION. The command rules of files 40 and 41, written as their pseudocode is: functions of the registers, the tape
and the plaintext, with no phases (R62, R63, R66, R79, R80, R81). R102 says that the sequencer agrees with them,
and the statements of this row say it of `step`. An answer `none` means that the command does not complete on
the bytes the random source has offered.
-/

namespace Sys2Proof.Machine

/-- The bytes the source has offered and the core has not drawn, next first (R35). -/
def State.tapeAhead (s : State) : List Byte := s.rnd.drop s.rp

/-- The redraw loop of R63 on a tape: the first non-zero byte and the number of draws it took. -/
def redraw : List Byte → Option (Byte × Nat)
  | [] => none
  | v :: rest => if v = 0 then (redraw rest).map fun r => (r.1, r.2 + 1) else some (v, 1)

/-- `INIT i` (R62). -/
def procInit (i : Byte) (s : State) : Option State :=
  if i = 0 then (redraw s.tapeAhead).map fun r => ({ s with rp := s.rp + r.2 } : State).seedLoad r.1
  else some (s.seedLoad i)

/-- `Advance()`: one draw `b`, then `S = StepN(S, b)` and `CNT = 0` (R80). -/
def procAdvance (s : State) : Option State :=
  match s.lfsr, s.tapeAhead with
  | some v, b :: _ => some ((s.consumeRandom.setLfsr (stepN v b.toNat)).setCnt 0)
  | _, _ => none

/-- `EncByte(p)` (R79). -/
def procEncByte (p : Byte) (s : State) : Option State :=
  s.lfsr.map fun v => s.emit (encrypted p v)

/-- The loop of R81 over the plaintext bytes still to encrypt: `EncByte`, `IDX <- IDX + 1`, `Advance`, after every byte. -/
def procBytes : List Byte → State → Option State
  | [], s => some s
  | p :: ps, s => (procEncByte p s).bind fun s1 => (procAdvance s1.bumpIdx).bind fun s2 => procBytes ps s2

/-- `RUN`: seed, burn, then every byte of the plaintext in order (R81). -/
def procRun (s : State) : Option State :=
  (procInit 0 s.beginRun).bind fun s1 =>
    (procAdvance s1).bind fun s2 => (procBytes s2.pt s2).map State.endRun

/-- A command that needs a seed faults without one (R110, R112). -/
def procSeeded (s : State) (go : Option State) : Option State :=
  if s.seeded then go else some (s.raiseFault .notSeeded)

/-- What one command does from its acceptance to its end, by its rule in file 40 or 41. -/
def commandRule (i : Instr) (s : State) : Option State :=
  match i with
  | .init i0 => procInit i0 s.consumeCommand
  | .step => procSeeded s.consumeCommand (s.lfsr.map fun v => s.consumeCommand.setLfsr (lfsrStep v))
  | .adv => procSeeded s.consumeCommand (procAdvance s.consumeCommand)
  | .encb p => procSeeded s.consumeCommand (procEncByte p s.consumeCommand)
  | .run => procRun s.consumeCommand

/-- The sum of the first `k` step counts of a list. -/
def countSum (bs : List Byte) (k : Nat) : Nat := ((bs.take k).map BitVec.toNat).sum

/-- The ciphertext of a RUN in closed form: byte `k` is `PT[k] xor Key(StepN(seed, b0 + b1[0] + ... + b1[k-1]))`, where
`bs` lists the `b1` in order (R82). -/
def ciphertextOf (seed : Lfsr) (b0 : Byte) (bs pt : List Byte) : List Byte :=
  pt.mapIdx fun k p => encrypted p (stepN seed (b0.toNat + countSum bs k))

end Sys2Proof.Machine
end

