-- ==== Sys2Proof/Safety.lean ====
section
/-!
DEFINITION. What the claims are stated in: the invariant of the core, the states a run can reach, when the core waits,
and which sequences of commands cannot fault.
-/

namespace Sys2Proof.Machine

/-- "`SEEDED = 1` exactly when `S` and `SEED` hold a value" (R17). -/
abbrev State.SeededAgrees (s : State) : Prop :=
  s.seeded = s.lfsr.isSome ∧ s.seeded = s.seed.isSome

/-- A seed has its head 1 and its tail 0 (R61), and `S` is never the lock-up state (R67, R128). -/
abbrev State.SeedShaped (s : State) : Prop :=
  (s.seed.all fun v => bitAt v 0 && !bitAt v 8) = true ∧ s.lfsr ≠ some 0

/-- `ERR = 1` exactly in `HALT`, `CAUSE != 0` exactly when `ERR = 1`, and `CAUSE` is never 3 (R50, R111, R112, R115). -/
abbrev State.FaultAgrees (s : State) : Prop :=
  (s.err = true ↔ s.ph = .halt) ∧ (s.cause ≠ 0 ↔ s.err = true) ∧ s.cause ≠ 3

/-- What each phase presupposes: a state to step or to encrypt with, a plaintext byte in `ENC`, a RUN only while a phase is
busy, `CNT` non-zero only in `STEPS` (R13, R14, R16, R80, R99, R100). -/
abbrev State.PhaseAgrees (s : State) : Prop :=
  (s.ph = .cntw ∨ s.ph = .steps ∨ s.ph = .enc → s.seeded = true)
    ∧ (s.ph = .enc → s.runm = true ∧ s.idx < s.pt.length)
    ∧ (s.runm = true → s.busy = true ∧ s.idx ≤ s.pt.length)
    ∧ (s.cnt ≠ 0 → s.ph = .steps)

/-- The core has drawn no byte the source has not offered (R35). -/
abbrev State.TapeAgrees (s : State) : Prop := s.rp ≤ s.rnd.length

/-- The invariant of the core. -/
abbrev State.Inv (s : State) : Prop :=
  s.SeededAgrees ∧ s.SeedShaped ∧ s.FaultAgrees ∧ s.PhaseAgrees ∧ s.TapeAgrees

/-- `S` is the stored seed stepped some number of times: nothing but the seed load and Step has written it (R19). -/
def State.OnSeedOrbit (s : State) : Prop :=
  ∀ v w, s.lfsr = some v → s.seed = some w → ∃ n, v = stepN w n

/-- The states a run can reach: from reset, by transitions and by what the environment may do in between. -/
inductive Reachable : State → Prop where
  | reset : Reachable State.reset
  | step (s t : State) : Reachable s → Sys2Proof.Machine.step s = .next t → Reachable t
  | env (s : State) (a : EnvAction) : Reachable s → envAllowed a s = true → Reachable (envAct a s)

/-- `n` steps of the machine, stopping at the first fault or refusal. -/
def runSteps : Nat → State → Result
  | 0, s => .next s
  | n + 1, s =>
    match Sys2Proof.Machine.step s with
    | .next t => runSteps n t
    | .fault r => .fault r
    | .refused r => .refused r

/-- The command `i` is at the command port of an idle core that is not being reset: the next step accepts it (R31, R96). -/
abbrev State.Offered (s : State) (i : Instr) : Prop :=
  s.rst = false ∧ s.ph = .idle ∧ s.offeredCommand.map decode = some (.command i)

/-- The tape ahead gives a RUN over the plaintext all it draws: `j` rejected zeros, the seed byte `v`, the burn count `b0`, and
one advance count for each plaintext byte (R82). -/
abbrev State.TapeForRun (s : State) (j : Nat) (v b0 : Byte) (bs : List Byte) : Prop :=
  v ≠ 0 ∧ bs.length = s.pt.length ∧ (List.replicate j 0 ++ v :: b0 :: bs) <+: s.tapeAhead

/-- RUN written out as single commands: `INITR`, `ADV`, then `ENCB p`, `ADV` for every plaintext byte (R102, program P7). -/
def runAsCommands (pt : List Byte) : List CmdWord :=
  (initr :: .adv :: pt.flatMap fun p => [.encb p, .adv]).map encode

/-- The cycles of Step: for each the smallest state on it and its length (R68). -/
def cycleTable : List (Lfsr × Nat) :=
  [(0x000, 1), (0x0DB, 3), (0x05C, 7), (0x00C, 15), (0x015, 15), (0x026, 15), (0x03F, 15), (0x01F, 21),
    (0x001, 105), (0x002, 105), (0x005, 105), (0x006, 105)]

/-- The core waits: no transition is enabled and no reset is asked for (R101, R117). In `IDLE` that is when no command word is
transferred (R55). -/
def State.waiting (s : State) : Bool :=
  !s.rst &&
    match s.ph with
    | .idle => !(s.cmdValid && s.cmdReady)
    | .seedw => !s.rndValid
    | .cntw => !s.rndValid
    | .steps => false
    | .enc => !s.ctReady
    | .halt => true

/-- No word is reserved, and every STEP, ADV and ENCB comes after an INIT or a RUN unless the core is seeded already
(R119). -/
def safeSequence : Bool → List CmdWord → Bool
  | _, [] => true
  | seeded, w :: ws =>
    match decode w with
    | .reserved _ => false
    | .command (.init _) => safeSequence true ws
    | .command .run => safeSequence true ws
    | .command .step => seeded && safeSequence seeded ws
    | .command .adv => seeded && safeSequence seeded ws
    | .command (.encb _) => seeded && safeSequence seeded ws

/-- The words `0x400` (RUN) and `0x000`..`0x0FF` (INIT), which never fault (R119). -/
def seedingWord (w : CmdWord) : Bool := w == 0x400 || decide (w.toNat ≤ 0xFF)

end Sys2Proof.Machine
end

