-- ==== Sys2Proof/Certificates/Slice0/Obligations.lean ====
section
/-!
DEFINITION. The statements for the provers. Each says which rules of the spec it formalises. A statement about a run is
about `runSteps`, that is about `step` alone; the command rules of `Machine/Procedure.lean` appear where a
statement says so.
-/

open Sys2Proof Sys2Proof.Machine

/-! ## Encoding -/

/-- R45, R46, R49: decoding an encoded command gives it back, and only a command's own word decodes to it. -/
def Obligations.DecodeEncodeRoundTrip : Prop :=
  (∀ i : Instr, i.wellFormed = true → decode (encode i) = .command i)
    ∧ ∀ (w : CmdWord) (i : Instr), decode w = .command i → encode i = w

/-- R46: a word selects a command when `(cmd & mask) = match`, with the masks and matches of the table written out; the
operand is `cmd[7:0]`; no word selects two rows. -/
def Obligations.WordSelectsCommandByMaskAndMatch : Prop :=
  (∀ w : CmdWord,
      (decode w = .command (.init (w.extractLsb' 0 8)) ↔ w &&& 0x700 = 0x000)
        ∧ (decode w = .command .step ↔ w &&& 0x7FF = 0x100)
        ∧ (decode w = .command .adv ↔ w &&& 0x7FF = 0x200)
        ∧ (decode w = .command (.encb (w.extractLsb' 0 8)) ↔ w &&& 0x700 = 0x300)
        ∧ (decode w = .command .run ↔ w &&& 0x7FF = 0x400))
    ∧ ∀ w : CmdWord, (opcodeTable.filter fun r => r.selects w).length ≤ 1

/-- R48: the reserved words are those of the four rows of the table, 1533 of the 2048 words, and accepting one raises
`ReservedCommand` and has no other effect. -/
def Obligations.ReservedWordsFault : Prop :=
  (∀ w : CmdWord,
      (decode w = .reserved .stepOperand ↔ 0x101 ≤ w.toNat ∧ w.toNat ≤ 0x1FF)
        ∧ (decode w = .reserved .advOperand ↔ 0x201 ≤ w.toNat ∧ w.toNat ≤ 0x2FF)
        ∧ (decode w = .reserved .runOperand ↔ 0x401 ≤ w.toNat ∧ w.toNat ≤ 0x4FF)
        ∧ (decode w = .reserved .unassignedOp ↔ 0x500 ≤ w.toNat))
    ∧ ((List.range 2048).filter fun n => (decodeTableWord 11 n).isNone).length = 1533
    ∧ ∀ (s : State) (w : CmdWord) (why : Reserved),
        s.rst = false → s.ph = .idle → s.offeredCommand = some w → decode w = .reserved why →
        step s = .next { s with cmd := s.cmd.tail, err := true, cause := 1, ph := .halt }

/-- The words of `95_test_vectors.md` §2.7, written out bit by bit from the table of R46, decode as it says. -/
def Obligations.WrittenOutWordsDecode : Prop :=
  decode 0b00000000000 = .command (.init 0) ∧ decode 0b00011111111 = .command (.init 255)
    ∧ decode 0b00100000000 = .command .step ∧ decode 0b00100000001 = .reserved .stepOperand
    ∧ decode 0b01000000000 = .command .adv ∧ decode 0b01011111111 = .reserved .advOperand
    ∧ decode 0b01100000000 = .command (.encb 0) ∧ decode 0b01111111111 = .command (.encb 255)
    ∧ decode 0b10000000000 = .command .run ∧ decode 0b10010000000 = .reserved .runOperand
    ∧ decode 0b10100000000 = .reserved .unassignedOp ∧ decode 0b11111111111 = .reserved .unassignedOp

/-- R52, R53: the word for `M imm` is `(op(M) << 8) | imm`, with the operand in decimal, in hexadecimal or as a quoted
character; `STEP`, `ADV` and `RUN` stand alone; `INITR` is `INIT 0`; an operand from 256 to 511 is an error. The words are written
out. Two things in it are the model's choice, not the spec's (log 15): hexadecimal digits may be lower-case, and a quoted
character may be a control character or the semicolon that would otherwise start a comment. -/
def Obligations.AssembledWords : Prop :=
  (∀ b : Byte,
      assemble (['I', 'N', 'I', 'T', ' '] ++ Nat.toDigits 10 b.toNat) = .word (0x000 ||| b.zeroExtend 11)
        ∧ assemble (['E', 'N', 'C', 'B', ' ', '0', 'x'] ++ Nat.toDigits 16 b.toNat) = .word (0x300 ||| b.zeroExtend 11)
        ∧ assemble (['E', 'N', 'C', 'B', ' '] ++ Nat.toDigits 10 (256 + b.toNat)) = .error)
    ∧ (∀ c : Char, c.toNat < 128 →
        assemble ['E', 'N', 'C', 'B', ' ', '\'', c, '\''] = .word (0x300 ||| BitVec.ofNat 11 c.toNat))
    ∧ assemble ['S', 'T', 'E', 'P'] = .word 0x100 ∧ assemble ['A', 'D', 'V'] = .word 0x200
    ∧ assemble ['R', 'U', 'N'] = .word 0x400 ∧ assemble ['I', 'N', 'I', 'T', 'R'] = .word 0x000

/-! ## The LFSR engine's functions -/

/-- R60: `SeedBits(i)` holds the binary digits of `i` without leading zeros from index 0 on, then zeros; packed, it is
`i << (9 - bitlen(i))`. -/
def Obligations.SeedBitsAreDigitsRightPadded : Prop :=
  ∀ i : Byte, i ≠ 0 →
    1 ≤ bitlen i ∧ bitlen i ≤ 8 ∧ 2 ^ (bitlen i - 1) ≤ i.toNat ∧ i.toNat < 2 ^ bitlen i
      ∧ (∀ k, k < 9 → bitAt (seedBits i) k = (decide (k < bitlen i) && i.getLsbD (bitlen i - 1 - k)))
      ∧ (seedBits i).toNat = i.toNat <<< (9 - bitlen i)

/-- R61: the head of a seed is 1 and its tail 0, every such state is a seed (so there are 128, the packed values
`0x100 + 2*m`), trailing zeros of the seed byte make no difference, and no seed is all-zero. -/
def Obligations.SeedShapes : Prop :=
  (∀ v : Lfsr, (∃ i : Byte, i ≠ 0 ∧ seedBits i = v) ↔ bitAt v 0 = true ∧ bitAt v 8 = false)
    ∧ (∀ v : Lfsr, (∃ i : Byte, i ≠ 0 ∧ seedBits i = v) ↔ ∃ m, m < 128 ∧ v.toNat = 0x100 + 2 * m)
    ∧ (∀ i : Byte, i ≠ 0 → 2 * i.toNat ≤ 255 → seedBits (2 * i) = seedBits i)
    ∧ ∀ i : Byte, i ≠ 0 → seedBits i ≠ 0

/-- R64: `Feedback(S)` is the sum mod 2 of the bits at the tap positions 0, 5, 7, 8; as a gate their exclusive or. -/
def Obligations.FeedbackIsTapParity : Prop :=
  ∀ v : Lfsr,
    (feedback v).toNat = ((bitAt v 0).toNat + (bitAt v 5).toNat + (bitAt v 7).toNat + (bitAt v 8).toNat) % 2
      ∧ feedback v = (bitAt v 0 ^^ bitAt v 5 ^^ bitAt v 7 ^^ bitAt v 8)

/-- R65: the new head is the feedback of the old state, every other bit comes from its neighbour towards the head; packed,
`(Feedback << 8) | (SVAL >> 1)`; the source's own example. -/
def Obligations.StepShiftsFeedbackIntoHead : Prop :=
  (∀ v : Lfsr,
      bitAt (lfsrStep v) 0 = feedback v
        ∧ (∀ k, 1 ≤ k → k ≤ 8 → bitAt (lfsrStep v) k = bitAt v (k - 1))
        ∧ (lfsrStep v).toNat = (feedback v).toNat <<< 8 ||| v.toNat >>> 1)
    ∧ lfsrStep 0x100 = 0x180

/-- R67: Step fixes zero, is a bijection with the stated inverse, is linear, and takes no seed to zero in any number of
steps. -/
def Obligations.StepIsInvertibleAndLinear : Prop :=
  lfsrStep 0 = 0
    ∧ (∀ v : Lfsr, unstep (lfsrStep v) = v ∧ lfsrStep (unstep v) = v)
    ∧ (∀ t : Lfsr, (∀ k, k < 8 → bitAt (unstep t) k = bitAt t (k + 1))
        ∧ bitAt (unstep t) 8 = (bitAt t 0 ^^ bitAt t 1 ^^ bitAt t 6 ^^ bitAt t 8))
    ∧ (∀ a b : Lfsr, lfsrStep (a ^^^ b) = lfsrStep a ^^^ lfsrStep b)
    ∧ (∀ v : Lfsr, v ≠ 0 → lfsrStep v ≠ 0)
    ∧ ∀ (i : Byte) (n : Nat), i ≠ 0 → stepN (seedBits i) n ≠ 0

/-- R69: StepN is Step repeated, and depends on the count only mod 105. -/
def Obligations.StepCountsRepeatAfter105 : Prop :=
  (∀ v : Lfsr, stepN v 0 = v)
    ∧ (∀ (v : Lfsr) (n : Nat), stepN v (n + 1) = lfsrStep (stepN v n))
    ∧ ∀ (v : Lfsr) (n : Nat), stepN v n = stepN v (n % 105)

/-- R68: the cycle table. Each listed state is the smallest on its cycle, its cycle has the stated length, and every state lies
on the cycle of exactly one of them. -/
def Obligations.StateCycles : Prop :=
  (∀ r ∈ cycleTable, stepN r.1 r.2 = r.1 ∧ ∀ k, 0 < k → k < r.2 → r.1 < stepN r.1 k)
    ∧ ∀ v : Lfsr, ∃ r ∈ cycleTable, (∃ k, stepN r.1 k = v) ∧ ∀ q ∈ cycleTable, (∃ k, stepN q.1 k = v) → q = r

/-! ## The key -/

/-- R75: the sign is -1 exactly when the head is 1; the magnitude is the weighted sum of the tail bits, odd, 1..255. -/
def Obligations.SignAndMagnitude : Prop :=
  ∀ v : Lfsr,
    sign v = (-1) ^ (bitAt v 0).toNat
      ∧ magnitude v = (2 * (bitAt v 1).toNat) ^ 0 + (2 * (bitAt v 2).toNat) ^ 1 + (2 * (bitAt v 3).toNat) ^ 2
          + (2 * (bitAt v 4).toNat) ^ 3 + (2 * (bitAt v 5).toNat) ^ 4 + (2 * (bitAt v 6).toNat) ^ 5
          + (2 * (bitAt v 7).toNat) ^ 6 + (2 * (bitAt v 8).toNat) ^ 7
      ∧ magnitude v = 1 + 2 * (bitAt v 2).toNat + 4 * (bitAt v 3).toNat + 8 * (bitAt v 4).toNat + 16 * (bitAt v 5).toNat
          + 32 * (bitAt v 6).toNat + 64 * (bitAt v 7).toNat + 128 * (bitAt v 8).toNat
      ∧ magnitude v % 2 = 1 ∧ magnitude v ≤ 255

/-- R76: the key is the non-negative residue of sign times magnitude mod 255; the four rows of the table; it never reads
`S[1]`; the rule's example. -/
def Obligations.KeyIsResidueMod255 : Prop :=
  (∀ v : Lfsr,
      ((key v).toNat : Int) = (sign v * (magnitude v : Int)) % 255
        ∧ (key v).toNat ≤ 254
        ∧ (key v).toNat =
            (if magnitude v = 255 then 0 else if bitAt v 0 then 255 - magnitude v else magnitude v)
        ∧ key (v ^^^ 0x080) = key v)
    ∧ key 0x16A = 0xA8

/-- R77: the gate-level form gives the same key on every state. -/
def Obligations.KeyGateForm : Prop :=
  ∀ v : Lfsr,
    (∀ k, k < 7 → (keyByte v).getLsbD (k + 1) = bitAt v (k + 2)) ∧ (keyByte v).getLsbD 0 = true
      ∧ key v = (if bitAt v 0 then ~~~ keyByte v else if keyByte v = 0xFF then 0x00 else keyByte v)

/-- R78: the key's range, its parity, the four states with key 0, the two states of every other key, and the key of an unstepped
seed. -/
def Obligations.KeyRangeAndAliasing : Prop :=
  (∀ b : Byte, (∃ v : Lfsr, key v = b) ↔ b ≠ 255)
    ∧ (∀ v : Lfsr, bitAt v 0 = false → (key v).toNat % 2 = 1 ∨ key v = 0)
    ∧ (∀ v : Lfsr, bitAt v 0 = true → (key v).toNat % 2 = 0)
    ∧ (∀ v : Lfsr, key v = 0 ↔ v = 0x07F ∨ v = 0x0FF ∨ v = 0x17F ∨ v = 0x1FF)
    ∧ (∀ v u : Lfsr, key v ≠ 0 → (key u = key v ↔ u = v ∨ u = v ^^^ 0x080))
    ∧ ∀ i : Byte, i ≠ 0 → (key (seedBits i)).toNat % 2 = 0 ∧ 128 ≤ (key (seedBits i)).toNat

/-! ## Reset and the step -/

/-- R22, R125: the reset values the spec gives. Of `OUT` the spec says "unspecified", and nothing is stated. -/
def Obligations.ResetRegisterValues : Prop :=
  State.reset.lfsr = none ∧ State.reset.seed = none ∧ State.reset.seeded = false ∧ State.reset.cnt = 0
    ∧ State.reset.idx = 0 ∧ State.reset.ph = .idle ∧ State.reset.runm = false ∧ State.reset.err = false
    ∧ State.reset.cause = 0 ∧ State.reset.busy = false ∧ State.reset.ct = [] ∧ State.reset.rp = 0
    ∧ State.reset.cmdReady = true

/-- R126: a reset may be applied in any phase; it gives the reset values, takes back no pushed byte and no draw, and is the only
way out of `HALT` and out of a redraw loop that draws no non-zero byte. -/
def Obligations.ResetInAnyPhase : Prop :=
  (∀ s : State, s.rst = true →
      ∃ t, step s = .next t ∧ t.lfsr = none ∧ t.seed = none ∧ t.seeded = false ∧ t.cnt = 0 ∧ t.idx = 0 ∧ t.ph = .idle
        ∧ t.runm = false ∧ t.err = false ∧ t.cause = 0 ∧ t.ct = s.ct ∧ t.rp = s.rp)
    ∧ (∀ s t : State, s.ph = .halt → step s = .next t → t.ph ≠ .halt → s.rst = true)
    ∧ ∀ s t : State, s.ph = .seedw → (∀ b, s.offeredRandom = some b → b = 0) → step s = .next t → t.ph ≠ .seedw →
        s.rst = true

/-- R31, R96: when the word at the command port of an idle core decodes to the command `i`, the step is `exec i`. -/
def Obligations.StepRunsOfferedCommand : Prop :=
  ∀ (s : State) (w : CmdWord) (i : Instr),
    s.rst = false → s.ph = .idle → s.offeredCommand = some w → decode w = .command i → step s = exec i s

/-! ## The commands -/

/-- R62, R96: `INIT i` with a non-zero `i` loads the seed at once, on any core, and draws nothing; with 0 it enters the redraw
loop. -/
def Obligations.InitLoadsSeedOrEntersRedraw : Prop :=
  (∀ (i : Byte) (s : State), i ≠ 0 →
      exec (.init i) s = .next { s with
        cmd := s.cmd.tail, lfsr := some (seedBits i), seed := some (seedBits i), seeded := true, ph := .idle })
    ∧ ∀ s : State, exec (.init 0) s = .next { s with cmd := s.cmd.tail, ph := .seedw }

/-- R66: `STEP` writes `S` only; it faults `NotSeeded` on an unseeded core; its word is `0x100`, and with any other operand
field the word is reserved. -/
def Obligations.StepCommandAdvancesState : Prop :=
  (∀ (s : State) (v : Lfsr), s.seeded = true → s.lfsr = some v →
      exec .step s = .next { s with cmd := s.cmd.tail, lfsr := some (lfsrStep v), ph := .idle })
    ∧ (∀ s : State, s.seeded = false →
        exec .step s = .next { s with cmd := s.cmd.tail, err := true, cause := 2, ph := .halt })
    ∧ encode .step = 0x100
    ∧ (∀ m : Byte, m ≠ 0 → decode (0x100 ||| m.zeroExtend 11) = .reserved .stepOperand)
    ∧ lfsrStep 0 = 0 ∧ (∀ (i : Byte) (n : Nat), i ≠ 0 → stepN (seedBits i) n ≠ 0) ∧ lfsrStep 0x180 = 0x1C0

/-- R79: `ENCB p` writes `OUT` and pushes it, leaves `S`, and makes no draw; it faults `NotSeeded` on an unseeded core; a zero
key passes the byte unchanged, and the byte is never complemented. The push needs a ready consumer (R117). That the fault
on an unseeded core does not wait for the consumer is the model's deduction (log 19). -/
def Obligations.EncbPushesXorOfKey : Prop :=
  (∀ (p : Byte) (s : State) (v : Lfsr), s.seeded = true → s.lfsr = some v → s.ctReady = true →
      exec (.encb p) s = .next { s with
        cmd := s.cmd.tail, out := p ^^^ key v, ct := s.ct ++ [p ^^^ key v], ph := .idle })
    ∧ (∀ (p : Byte) (s : State), s.seeded = false →
        exec (.encb p) s = .next { s with cmd := s.cmd.tail, err := true, cause := 2, ph := .halt })
    ∧ (∀ p : Byte, encode (.encb p) = 0x300 ||| p.zeroExtend 11)
    ∧ (∀ (p : Byte) (v : Lfsr), key v = 0 → p ^^^ key v = p)
    ∧ (∀ (p : Byte) (v : Lfsr), p ^^^ key v ≠ ~~~ p)
    ∧ (0x41 : Byte) ^^^ key 0x16A = 0xE9

/-- R80, R96: accepting `ADV` enters the draw of the count; on an unseeded core it faults before the draw. -/
def Obligations.AdvEntersCountDraw : Prop :=
  (∀ s : State, s.seeded = true → exec .adv s = .next { s with cmd := s.cmd.tail, ph := .cntw })
    ∧ ∀ s : State, s.seeded = false →
        exec .adv s = .next { s with cmd := s.cmd.tail, err := true, cause := 2, ph := .halt }

/-- R81, R96: accepting `RUN` sets `RUNM`, clears `IDX` and enters the seed draw, whether the core is seeded or not. -/
def Obligations.RunEntersSeedDraw : Prop :=
  ∀ s : State, exec .run s = .next { s with cmd := s.cmd.tail, runm := true, idx := 0, ph := .seedw }

/-- What each command leaves unchanged when it answers a next state (R62, R66, R79, R80, R81, R113): no command touches the
channels it does not use, and each register is written only by the commands whose rule writes it. -/
def Obligations.CommandFrames : Prop :=
  ∀ (i : Instr) (s t : State), exec i s = .next t →
    t.pt = s.pt ∧ t.rnd = s.rnd ∧ t.rp = s.rp ∧ t.cnt = s.cnt ∧ t.ctReady = s.ctReady ∧ t.rst = s.rst
      ∧ (∀ k, t.ptRead k = s.ptRead k)
      ∧ (t.cmd = s.cmd.tail ∨ t = s)
      ∧ (i ≠ .run → t.idx = s.idx ∧ t.runm = s.runm)
      ∧ ((∀ b, i ≠ .init b) → t.seed = s.seed ∧ t.seeded = s.seeded)
      ∧ ((∀ b, i ≠ .init b) → i ≠ .step → t.lfsr = s.lfsr)
      ∧ ((∀ p, i ≠ .encb p) → t.out = s.out ∧ t.ct = s.ct)
      ∧ (t.ct = s.ct ∨ t.ct = s.ct ++ [t.out])
      ∧ (s.seeded = true ∨ i = .run ∨ (∃ b, i = .init b) → t.err = s.err ∧ t.cause = s.cause)
      ∧ (s.seeded = false → (∀ b, i ≠ .init b) → t.lfsr = s.lfsr ∧ t.out = s.out ∧ t.ct = s.ct)

/-! ## The sequencer -/

/-- R97: one draw of `SEEDW`: a zero is rejected and only `RP` moves; a non-zero byte is loaded, and the phase is `CNTW` in a RUN
and `IDLE` otherwise. -/
def Obligations.SeedDrawTransition : Prop :=
  ∀ (s : State) (r : Byte), s.rst = false → s.ph = .seedw → s.offeredRandom = some r →
    step s = .next (
      if r = 0 then { s with rp := s.rp + 1 }
      else { s with
        rp := s.rp + 1, lfsr := some (seedBits r), seed := some (seedBits r), seeded := true,
        ph := if s.runm = true then .cntw else .idle })

/-- R98: the draw of `CNTW` loads `CNT` and enters `STEPS`. -/
def Obligations.CountDrawTransition : Prop :=
  ∀ (s : State) (r : Byte), s.rst = false → s.ph = .cntw → s.offeredRandom = some r →
    step s = .next { s with rp := s.rp + 1, cnt := r, ph := .steps }

/-- R99: `STEPS` steps once while `CNT != 0`, then ends an ADV, goes to the next byte of a RUN, or ends the RUN. -/
def Obligations.StepsTransition : Prop :=
  ∀ s : State, s.rst = false → s.ph = .steps →
    (∀ v : Lfsr, s.cnt ≠ 0 → s.lfsr = some v →
        step s = .next { s with lfsr := some (lfsrStep v), cnt := s.cnt - 1 })
      ∧ (s.cnt = 0 →
        step s = .next (
          if s.runm = false then { s with ph := .idle }
          else if s.idx < s.pt.length then { s with ph := .enc }
          else { s with runm := false, ph := .idle }))

/-- R100: `ENC` encrypts `PT[IDX]`, pushes it, increments `IDX` and enters `CNTW`. The push needs a ready consumer (R117). -/
def Obligations.EncryptTransition : Prop :=
  ∀ (s : State) (v : Lfsr) (p : Byte), s.rst = false → s.ph = .enc → s.lfsr = some v → s.pt[s.idx]? = some p →
    s.ctReady = true →
    step s = .next { s with
      out := p ^^^ key v, ct := s.ct ++ [p ^^^ key v], idx := s.idx + 1, ph := .cntw }

/-- R117: the three waits change nothing and are no faults: (a) no random byte in `SEEDW` or `CNTW`, (b) the consumer not ready in
`ENC` or for an ENCB, (c) no command in `IDLE`. That the word of an ENCB that waits stays at the head of CMD is the model's
deduction (log 17), and that a wait is a step to the same state its choice (log 7). -/
def Obligations.WaitsChangeNothing : Prop :=
  (∀ s : State, s.rst = false → s.ph = .seedw ∨ s.ph = .cntw → s.offeredRandom = none → step s = .next s)
    ∧ (∀ s : State, s.rst = false → s.ph = .enc → s.idx < s.pt.length → s.lfsr ≠ none → s.ctReady = false →
        step s = .next s)
    ∧ (∀ (s : State) (p : Byte), s.Offered (.encb p) → s.seeded = true → s.lfsr ≠ none → s.ctReady = false →
        step s = .next s)
    ∧ ∀ s : State, s.rst = false → s.ph = .idle → s.offeredCommand = none → step s = .next s

/-- R101: in `HALT` nothing happens any more, for any number of steps, whatever is offered. -/
def Obligations.HaltIsKept : Prop :=
  ∀ (s : State) (n : Nat), s.rst = false → s.ph = .halt → runSteps n s = .next s

/-- Where the model stops: reading `S` in a state that holds none although `SEEDED` or the phase says otherwise, and reading `PT`
out of range (U7). The stops are the model's choice (log 2, log 12); the invariant rules both states out. -/
def Obligations.ModelStops : Prop :=
  (∀ s : State, s.seeded = true → s.lfsr = none → exec .step s = .fault .lfsrAbsent)
    ∧ (∀ (p : Byte) (s : State), s.seeded = true → s.lfsr = none → exec (.encb p) s = .fault .lfsrAbsent)
    ∧ (∀ s : State, s.rst = false → s.ph = .steps → s.cnt ≠ 0 → s.lfsr = none → step s = .fault .lfsrAbsent)
    ∧ (∀ s : State, s.rst = false → s.ph = .enc → s.idx < s.pt.length → s.lfsr = none → step s = .fault .lfsrAbsent)
    ∧ ∀ s : State, s.rst = false → s.ph = .enc → s.pt.length ≤ s.idx → step s = .refused .ptOutOfRange

/-! ## Whole-machine rules -/

/-- R110: the core raises exactly two faults, both on accepting a command in `IDLE`: `ReservedCommand` (cause code 1) on a
reserved word, and `NotSeeded` (cause code 2) on a STEP, ADV or ENCB with `SEEDED = 0`. Nothing else sets `ERR`, and each of
the two does. That an unseeded ENCB faults while the consumer is not ready is the model's deduction (log 19), and that a
reset comes before any acceptance its choice (log 8). -/
def Obligations.OnlyTwoFaults : Prop :=
  ∀ s t : State, s.err = false → step s = .next t →
    (t.err = true ↔
      s.rst = false ∧ s.ph = .idle ∧
        ((∃ why, s.offeredCommand.map decode = some (.reserved why))
          ∨ s.seeded = false ∧ ∃ i, s.offeredCommand.map decode = some (.command i)
              ∧ (i = .step ∨ i = .adv ∨ ∃ p, i = .encb p)))
      ∧ (t.err = true →
          (∀ why, s.offeredCommand.map decode = some (.reserved why) → t.cause = 1)
            ∧ ∀ i, s.offeredCommand.map decode = some (.command i) → t.cause = 2)

/-- R112, R113: a fault sets `ERR`, the cause code and `HALT`, consumes the command, and changes nothing else. -/
def Obligations.FaultsArePrecise : Prop :=
  ∀ s t : State, s.err = false → step s = .next t → t.err = true →
    t = { s with cmd := s.cmd.tail, err := true, cause := t.cause, ph := .halt }
      ∧ ((∃ why, s.offeredCommand.map decode = some (.reserved why) ∧ t.cause = 1)
        ∨ ∃ i, s.offeredCommand.map decode = some (.command i) ∧ t.cause = 2)

/-- R50: the layout of `STATUS`; `ERR = 1` implies `BUSY = 0` and `HALT`, `CAUSE != 0` exactly when `ERR = 1`, 3 never occurs; only
reset clears `SEEDED`, `ERR` and `CAUSE`; no action of the environment writes a field. -/
def Obligations.StatusWordLayoutAndClearing : Prop :=
  (∀ s : State,
      s.status.getLsbD 0 = s.seeded ∧ s.status.getLsbD 1 = s.busy ∧ s.status.getLsbD 2 = s.err
        ∧ s.status.extractLsb' 3 2 = s.cause)
    ∧ (∀ s : State, s.Inv → (s.err = true → s.busy = false ∧ s.ph = .halt) ∧ (s.cause ≠ 0 ↔ s.err = true) ∧ s.cause ≠ 3)
    ∧ (∀ s t : State, s.Inv → s.rst = false → step s = .next t →
        (s.seeded = true → t.seeded = true) ∧ (s.err = true → t.err = true ∧ t.cause = s.cause))
    ∧ (∀ (a : EnvAction) (s : State), (envAct a s).status = s.status)
    ∧ State.reset.status = 0

/-- R19, R11: `S` is written by two things only, the seed load and Step, and `SEED` by the seed load only. -/
def Obligations.OnlySeedLoadAndStepWriteState : Prop :=
  ∀ s t : State, s.rst = false → step s = .next t →
    (t.lfsr = s.lfsr ∧ t.seed = s.seed)
      ∨ (∃ i : Byte, i ≠ 0 ∧ t.lfsr = some (seedBits i) ∧ t.seed = some (seedBits i) ∧ t.seeded = true
          ∧ (s.Offered (.init i) ∨ (s.ph = .seedw ∧ s.offeredRandom = some i)))
      ∨ ∃ v, s.lfsr = some v ∧ t.lfsr = some (lfsrStep v) ∧ t.seed = s.seed
          ∧ (s.Offered .step ∨ (s.ph = .steps ∧ s.cnt ≠ 0))

/-- R11, R12, R22: no rule reads `SEED`, and none reads `OUT` before writing it: whatever the two hold, a step writes the same values
to every other register and channel. -/
def Obligations.SeedAndOutAreNeverRead : Prop :=
  ∀ (s t : State) (x : Option Lfsr) (o : Byte), step s = .next t →
    ∃ y z, step { s with seed := x, out := o } = .next { t with seed := y, out := z }

/-- R34, R12: the ciphertext history is append-only, one byte at a time; the byte pushed is the new `OUT`, and it is a plaintext byte
xor the key of `S`, from an ENCB or from `PT[IDX]` in a RUN. -/
def Obligations.CiphertextIsAppendOnly : Prop :=
  ∀ s t : State, step s = .next t →
    (t.ct = s.ct ∧ (s.rst = false → t.out = s.out))
      ∨ ∃ (p : Byte) (v : Lfsr), s.lfsr = some v ∧ s.ctReady = true ∧ t.out = p ^^^ key v ∧ t.ct = s.ct ++ [t.out]
          ∧ (s.Offered (.encb p) ∨ (s.ph = .enc ∧ s.pt[s.idx]? = some p))

/-- R35, R41: a draw consumes exactly the byte `RND[RP]`, and draws are made in `SEEDW` and `CNTW` only; the core never changes the
tape or the plaintext. That a reset too keeps the tape, the plaintext and the consumer's readiness is the model's deduction
(log 18). -/
def Obligations.DrawsConsumeOneByteInOrder : Prop :=
  ∀ s t : State, step s = .next t →
    t.rnd = s.rnd ∧ t.pt = s.pt ∧ t.ctReady = s.ctReady
      ∧ (t.rp = s.rp ∨ (t.rp = s.rp + 1 ∧ s.rst = false ∧ s.rp < s.rnd.length ∧ (s.ph = .seedw ∨ s.ph = .cntw)))

/-- R31, R103: a command word is accepted only in `IDLE`, in the order offered, one at a time; while the core is busy or halted none
is. That a reset leaves the offered words where they are is the model's deduction (log 18), unsafe on a platform whose reset
empties its queue; that an ENCB which waits for the consumer has not been accepted is another (log 17). -/
def Obligations.CommandsAcceptedOnlyInIdle : Prop :=
  ∀ s t : State, step s = .next t →
    t.cmd = s.cmd ∨ (s.rst = false ∧ s.ph = .idle ∧ ∃ w, s.offeredCommand = some w ∧ s.cmd = w :: t.cmd)

/-- R119: a sequence with no reserved word and no STEP, ADV or ENCB before a seed never faults, however long the core runs; a
sequence of RUN and INIT words is one. -/
def Obligations.SafeSequencesNeverFault : Prop :=
  (∀ (s t : State) (n : Nat), s.rst = false → s.err = false →
      safeSequence (s.seeded || decide (s.ph = .seedw)) s.cmd = true → runSteps n s = .next t → t.err = false)
    ∧ ∀ (b : Bool) (ws : List CmdWord), ws.all seedingWord = true → safeSequence b ws = true

/-! ## Invariants -/

/-- The reset state meets the invariant. -/
def Obligations.ResetMeetsInv : Prop := State.reset.Inv

/-- Every step keeps the invariant, from every state that meets it (R13, R14, R16, R17, R18, R50, R61, R67, R128). -/
def Obligations.StepKeepsInv : Prop :=
  ∀ s t : State, s.Inv → step s = .next t → t.Inv

/-- What the environment may do between two steps keeps the invariant. -/
def Obligations.EnvironmentKeepsInv : Prop :=
  ∀ (a : EnvAction) (s : State), s.Inv → envAllowed a s = true → (envAct a s).Inv

/-- R19: every step keeps `S` on the orbit of the stored seed. -/
def Obligations.StepKeepsSeedOrbit : Prop :=
  ∀ s t : State, s.OnSeedOrbit → step s = .next t → t.OnSeedOrbit

/-- A state that meets the invariant never stops: a step always answers a next state (R33, R115, U13: the algorithm is closed
over its domain). -/
def Obligations.InvariantStatesNeverStop : Prop :=
  ∀ s : State, s.Inv → ∃ t, step s = .next t

/-- R101, R104, R117: from a state that meets the invariant, a step leaves the state as it is exactly when the core waits. It
rests on the model's choices and deductions: a wait is a step to the same state (log 7); a reset counts as a change, since
the request is taken back (log 8); an ENCB that waits keeps its word in place (log 17); an unseeded ENCB does not wait for
the consumer (log 19). -/
def Obligations.ProgressUnlessWaiting : Prop :=
  ∀ s : State, s.Inv → (step s = .next s ↔ s.waiting = true)

/-- Every state that a run can reach, with any environment that does not change the plaintext during a RUN (log 16), meets the
invariant, has `S` on the orbit of its seed, does not hold the lock-up state (R128), and does not stop. -/
def Obligations.ReachableStatesAreGood : Prop :=
  ∀ s : State, Reachable s → s.Inv ∧ s.OnSeedOrbit ∧ s.lfsr ≠ some 0 ∧ ∃ t, step s = .next t

/-! ## Whole commands -/

/-- R63, R62: `INIT 0` on a tape with `j` zeros and then `v != 0` makes `j + 1` draws and loads `SeedBits(v)`; on a tape with zeros
only it stays busy in `SEEDW`, and nothing but the tape position changes. -/
def Obligations.InitUnsetRedrawsUntilNonzero : Prop :=
  (∀ (s : State) (j : Nat) (v : Byte), s.Offered (.init 0) → s.runm = false → v ≠ 0 →
      (List.replicate j 0 ++ [v]) <+: s.tapeAhead →
      runSteps (j + 2) s = .next { s with
        cmd := s.cmd.tail, lfsr := some (seedBits v), seed := some (seedBits v), seeded := true, rp := s.rp + (j + 1) })
    ∧ (∀ (s : State) (n : Nat), s.rst = false → s.ph = .seedw → (∀ b ∈ s.tapeAhead, b = 0) → n ≤ s.tapeAhead.length →
        runSteps n s = .next { s with rp := s.rp + n })
    ∧ ∀ (s : State) (n : Nat), s.rst = false → s.ph = .seedw → (∀ b ∈ s.tapeAhead, b = 0) →
        ∃ r, s.rp ≤ r ∧ runSteps n s = .next { s with rp := r } ∧ ({ s with rp := r } : State).busy = true

/-- R80: an `ADV` makes one draw `b`, takes exactly `b` steps and is complete, with `CNT = 0`, after `b + 3` transitions, which
with its acceptance counted apart is at most 257 (R104); a count of 105 or 210 leaves `S` unchanged. -/
def Obligations.AdvTakesDrawnNumberOfSteps : Prop :=
  (∀ (s : State) (v : Lfsr) (b : Byte), s.Offered .adv → s.runm = false → s.seeded = true → s.lfsr = some v →
      s.offeredRandom = some b →
      runSteps (b.toNat + 3) s = .next { s with
        cmd := s.cmd.tail, lfsr := some (stepN v b.toNat), cnt := 0, rp := s.rp + 1 })
    ∧ (∀ s : State, s.Offered .adv → s.seeded = false →
        step s = .next { s with cmd := s.cmd.tail, err := true, cause := 2, ph := .halt })
    ∧ encode .adv = 0x200
    ∧ (∀ m : Byte, m ≠ 0 → decode (0x200 ||| m.zeroExtend 11) = .reserved .advOperand)
    ∧ (∀ v : Lfsr, stepN v 105 = v ∧ stepN v 210 = v)
    ∧ stepN 0x16A 3 = 0x06D

/-- R81, R82, R44, R104: a whole `RUN`, from its acceptance to its end. On a tape with `j` zeros, the seed byte `v`, the burn count `b0`
and one count for each plaintext byte, it ends after at most `j + 1` draws, 257 transitions for each of its `L + 1` advances and
`L` encryptions; it has drawn `j + 2 + L` bytes and pushed `PT[k] xor Key(StepN(SeedBits(v), b0 + b1[0] + ... + b1[k-1]))`
for each `k`, and every register is as R81 says. -/
def Obligations.RunEncryptsWholePlaintext : Prop :=
  ∀ (s : State) (j : Nat) (v b0 : Byte) (bs : List Byte),
    s.Offered .run → s.ctReady = true → s.TapeForRun j v b0 bs →
    ∃ n, n ≤ 1 + (j + 1) + 257 * (s.pt.length + 1) + s.pt.length ∧
      runSteps n s = .next { s with
        cmd := s.cmd.tail
        lfsr := some (stepN (seedBits v) (b0.toNat + countSum bs bs.length))
        seed := some (seedBits v)
        seeded := true
        out := (ciphertextOf (seedBits v) b0 bs s.pt).getLastD s.out
        cnt := 0
        idx := s.pt.length
        runm := false
        rp := s.rp + (j + 2 + s.pt.length)
        ct := s.ct ++ ciphertextOf (seedBits v) b0 bs s.pt }

/-- R82: the closed form of the ciphertext, byte by byte. -/
def Obligations.CiphertextByteFormula : Prop :=
  ∀ (seed : Lfsr) (b0 : Byte) (bs pt : List Byte) (k : Nat) (p : Byte), pt[k]? = some p →
    (ciphertextOf seed b0 bs pt).length = pt.length ∧
      (ciphertextOf seed b0 bs pt)[k]? =
        some (p ^^^ key (stepN seed (b0.toNat + ((bs.take k).map BitVec.toNat).sum)))

/-- R83, R44: whatever the tape and however the run waits, a RUN that has ended has pushed exactly `L` bytes. -/
def Obligations.RunPushesOneBytePerPlaintextByte : Prop :=
  ∀ (s t : State) (n : Nat), s.Offered .run → 0 < n → runSteps n s = .next t → t.runm = false →
    (∀ m u, 0 < m → m < n → runSteps m s = .next u → u.runm = true) →
    t.ct.length = s.ct.length + s.pt.length ∧ t.idx = s.pt.length ∧ t.ph = .idle ∧ t.pt = s.pt

/-- R102: the machine agrees with the command rules. Whatever the rule of files 40 and 41 says a command does from its acceptance to its
end, the transitions from `IDLE` until the core is next idle or halted do, and the core is busy in between. -/
def Obligations.SequencerFollowsCommandRules : Prop :=
  ∀ (i : Instr) (s t : State), s.Inv → s.Offered i → s.ctReady = true → commandRule i s = some t →
    ∃ n, 0 < n ∧ runSteps n s = .next t ∧ t.busy = false ∧
      ∀ m, 0 < m → m < n → ∃ u, runSteps m s = .next u ∧ u.busy = true

/-- R102, program P7: a RUN and the same procedure issued as single commands end in the same state but for `IDX`, which only RUN
uses. -/
def Obligations.RunEqualsSingleCommands : Prop :=
  ∀ (s : State) (j : Nat) (v b0 : Byte) (bs : List Byte),
    s.rst = false → s.ph = .idle → s.runm = false → s.ctReady = true → s.TapeForRun j v b0 bs →
    ∃ n m t, runSteps n { s with cmd := [encode .run] } = .next t ∧ t.ph = .idle ∧ t.cmd = []
      ∧ t.ct.length = s.ct.length + s.pt.length
      ∧ runSteps m { s with cmd := runAsCommands s.pt } = .next { t with idx := s.idx }

/-- R84: a second RUN whose plaintext is the first run's ciphertext, whose seed byte has the same seed and whose counts are the same (the last
advance apart, which no output depends on) pushes the first run's plaintext. -/
def Obligations.EncryptionIsAnInvolution : Prop :=
  ∀ (s1 s2 : State) (j1 j2 : Nat) (v1 v2 b0 : Byte) (bs1 bs2 : List Byte),
    s1.Offered .run → s2.Offered .run → s1.ctReady = true → s2.ctReady = true →
    s1.TapeForRun j1 v1 b0 bs1 → s2.TapeForRun j2 v2 b0 bs2 →
    seedBits v1 = seedBits v2 → bs1.dropLast = bs2.dropLast →
    ∃ n1 t1 c, runSteps n1 s1 = .next t1 ∧ t1.runm = false ∧ t1.idx = s1.pt.length ∧ t1.ct = s1.ct ++ c
      ∧ c.length = s1.pt.length
      ∧ (s2.pt = c → ∃ n2 t2, runSteps n2 s2 = .next t2 ∧ t2.runm = false ∧ t2.idx = s2.pt.length
          ∧ t2.ct = s2.ct ++ s1.pt)

/-- R7, R85: a RUN depends on the plaintext and the tape ahead and on nothing the core held before: two cores that differ in any register, in
what they have pushed and in how far their tapes have gone, but have the same plaintext and the same tape ahead, push the same bytes and
go through the same phases, step for step. -/
def Obligations.RunsDependOnTapeAndPlaintextOnly : Prop :=
  ∀ (s1 s2 t1 : State) (n : Nat),
    s1.Offered .run → s2.Offered .run → s1.cmd = [encode .run] → s2.cmd = [encode .run] → s1.pt = s2.pt →
    s1.tapeAhead = s2.tapeAhead → s1.ctReady = s2.ctReady → 0 < n → runSteps n s1 = .next t1 →
    ∃ t2 c, runSteps n s2 = .next t2 ∧ t1.ct = s1.ct ++ c ∧ t2.ct = s2.ct ++ c ∧ t1.ph = t2.ph ∧ t1.runm = t2.runm
      ∧ t1.idx = t2.idx ∧ t1.tapeAhead = t2.tapeAhead ∧ (t1.ph ≠ .seedw → t1.lfsr = t2.lfsr ∧ t1.seed = t2.seed)

/-! ## Ports -/

/-- R55: one transfer on a channel when its valid and its ready are both 1, and none otherwise: of a command word, of a random
byte, of a ciphertext byte, which port `ct` then shows; `cmd_ready` is 1 only in `IDLE`; in `ENC` the plaintext port
answers, and the byte pushed is its byte xor the key. Which values the ready and valid ports of this untimed model have is
its choice (log 8, 14) and its deduction for an ENCB (log 17, 19). -/
def Obligations.PortHandshakes : Prop :=
  (∀ s : State, s.cmdReady = true → s.ph = .idle)
    ∧ (∀ s t : State, s.Inv → s.rst = false → step s = .next t →
        t.cmd = if s.cmdValid && s.cmdReady then s.cmd.tail else s.cmd)
    ∧ (∀ s t : State, s.Inv → step s = .next t →
        t.rp = (if s.rndValid && s.rndReady then s.rp + 1 else s.rp)
          ∧ t.ct = if s.ctValid && s.ctReady then s.ct ++ [t.ctPort] else s.ct)
    ∧ (∀ s : State, s.Inv → s.ph = .enc → s.ptIdx < s.ptLen ∧ s.ptData = s.pt[s.idx]? ∧ s.ptData ≠ none)
    ∧ ∀ (s t : State) (v : Lfsr) (p : Byte), s.rst = false → s.ph = .enc → s.lfsr = some v → s.ptData = some p →
        s.ctReady = true → step s = .next t → t.ctPort = p ^^^ key v
end

