-- ==== Sys2Proof/Laws/Engine.lean ====
section
/-!
SUPPORT. How repeated steps compose (R69).
-/

namespace Sys2Proof.Machine

@[simp] theorem stepN_zero (v : Lfsr) : stepN v 0 = v := rfl

@[simp] theorem stepN_succ (v : Lfsr) (n : Nat) : stepN v (n + 1) = lfsrStep (stepN v n) := rfl

theorem stepN_add (v : Lfsr) (m n : Nat) : stepN v (m + n) = stepN (stepN v m) n := by
  induction n with
  | zero => rfl
  | succ n ih => rw [Nat.add_succ, stepN_succ, ih, stepN_succ]

/-- The first step can be taken first. -/
theorem stepN_step (v : Lfsr) (n : Nat) : stepN (lfsrStep v) n = lfsrStep (stepN v n) := by
  rw [show lfsrStep v = stepN v 1 from rfl, ← stepN_add, Nat.add_comm, stepN_succ]

end Sys2Proof.Machine
end

