-- ==== Sys2Proof/Laws/State.lean ====
section
/-!
SUPPORT. What each field of the state is after each named update, so that no proof unfolds a record update.
-/

namespace Sys2Proof.Machine

@[simp] theorem State.consumeCommand_lfsr (s : State) : (s.consumeCommand).lfsr = s.lfsr := rfl
@[simp] theorem State.consumeCommand_seed (s : State) : (s.consumeCommand).seed = s.seed := rfl
@[simp] theorem State.consumeCommand_seeded (s : State) : (s.consumeCommand).seeded = s.seeded := rfl
@[simp] theorem State.consumeCommand_out (s : State) : (s.consumeCommand).out = s.out := rfl
@[simp] theorem State.consumeCommand_cnt (s : State) : (s.consumeCommand).cnt = s.cnt := rfl
@[simp] theorem State.consumeCommand_idx (s : State) : (s.consumeCommand).idx = s.idx := rfl
@[simp] theorem State.consumeCommand_ph (s : State) : (s.consumeCommand).ph = s.ph := rfl
@[simp] theorem State.consumeCommand_runm (s : State) : (s.consumeCommand).runm = s.runm := rfl
@[simp] theorem State.consumeCommand_err (s : State) : (s.consumeCommand).err = s.err := rfl
@[simp] theorem State.consumeCommand_cause (s : State) : (s.consumeCommand).cause = s.cause := rfl
@[simp] theorem State.consumeCommand_cmd (s : State) : (s.consumeCommand).cmd = s.cmd.tail := rfl
@[simp] theorem State.consumeCommand_pt (s : State) : (s.consumeCommand).pt = s.pt := rfl
@[simp] theorem State.consumeCommand_rnd (s : State) : (s.consumeCommand).rnd = s.rnd := rfl
@[simp] theorem State.consumeCommand_rp (s : State) : (s.consumeCommand).rp = s.rp := rfl
@[simp] theorem State.consumeCommand_ct (s : State) : (s.consumeCommand).ct = s.ct := rfl
@[simp] theorem State.consumeCommand_ctReady (s : State) : (s.consumeCommand).ctReady = s.ctReady := rfl
@[simp] theorem State.consumeCommand_rst (s : State) : (s.consumeCommand).rst = s.rst := rfl

@[simp] theorem State.enterPhase_lfsr (s : State) (p : Phase) : (s.enterPhase p).lfsr = s.lfsr := rfl
@[simp] theorem State.enterPhase_seed (s : State) (p : Phase) : (s.enterPhase p).seed = s.seed := rfl
@[simp] theorem State.enterPhase_seeded (s : State) (p : Phase) : (s.enterPhase p).seeded = s.seeded := rfl
@[simp] theorem State.enterPhase_out (s : State) (p : Phase) : (s.enterPhase p).out = s.out := rfl
@[simp] theorem State.enterPhase_cnt (s : State) (p : Phase) : (s.enterPhase p).cnt = s.cnt := rfl
@[simp] theorem State.enterPhase_idx (s : State) (p : Phase) : (s.enterPhase p).idx = s.idx := rfl
@[simp] theorem State.enterPhase_ph (s : State) (p : Phase) : (s.enterPhase p).ph = p := rfl
@[simp] theorem State.enterPhase_runm (s : State) (p : Phase) : (s.enterPhase p).runm = s.runm := rfl
@[simp] theorem State.enterPhase_err (s : State) (p : Phase) : (s.enterPhase p).err = s.err := rfl
@[simp] theorem State.enterPhase_cause (s : State) (p : Phase) : (s.enterPhase p).cause = s.cause := rfl
@[simp] theorem State.enterPhase_cmd (s : State) (p : Phase) : (s.enterPhase p).cmd = s.cmd := rfl
@[simp] theorem State.enterPhase_pt (s : State) (p : Phase) : (s.enterPhase p).pt = s.pt := rfl
@[simp] theorem State.enterPhase_rnd (s : State) (p : Phase) : (s.enterPhase p).rnd = s.rnd := rfl
@[simp] theorem State.enterPhase_rp (s : State) (p : Phase) : (s.enterPhase p).rp = s.rp := rfl
@[simp] theorem State.enterPhase_ct (s : State) (p : Phase) : (s.enterPhase p).ct = s.ct := rfl
@[simp] theorem State.enterPhase_ctReady (s : State) (p : Phase) : (s.enterPhase p).ctReady = s.ctReady := rfl
@[simp] theorem State.enterPhase_rst (s : State) (p : Phase) : (s.enterPhase p).rst = s.rst := rfl

@[simp] theorem State.seedLoad_lfsr (s : State) (v : Byte) : (s.seedLoad v).lfsr = some (seedBits v) := rfl
@[simp] theorem State.seedLoad_seed (s : State) (v : Byte) : (s.seedLoad v).seed = some (seedBits v) := rfl
@[simp] theorem State.seedLoad_seeded (s : State) (v : Byte) : (s.seedLoad v).seeded = true := rfl
@[simp] theorem State.seedLoad_out (s : State) (v : Byte) : (s.seedLoad v).out = s.out := rfl
@[simp] theorem State.seedLoad_cnt (s : State) (v : Byte) : (s.seedLoad v).cnt = s.cnt := rfl
@[simp] theorem State.seedLoad_idx (s : State) (v : Byte) : (s.seedLoad v).idx = s.idx := rfl
@[simp] theorem State.seedLoad_ph (s : State) (v : Byte) : (s.seedLoad v).ph = s.ph := rfl
@[simp] theorem State.seedLoad_runm (s : State) (v : Byte) : (s.seedLoad v).runm = s.runm := rfl
@[simp] theorem State.seedLoad_err (s : State) (v : Byte) : (s.seedLoad v).err = s.err := rfl
@[simp] theorem State.seedLoad_cause (s : State) (v : Byte) : (s.seedLoad v).cause = s.cause := rfl
@[simp] theorem State.seedLoad_cmd (s : State) (v : Byte) : (s.seedLoad v).cmd = s.cmd := rfl
@[simp] theorem State.seedLoad_pt (s : State) (v : Byte) : (s.seedLoad v).pt = s.pt := rfl
@[simp] theorem State.seedLoad_rnd (s : State) (v : Byte) : (s.seedLoad v).rnd = s.rnd := rfl
@[simp] theorem State.seedLoad_rp (s : State) (v : Byte) : (s.seedLoad v).rp = s.rp := rfl
@[simp] theorem State.seedLoad_ct (s : State) (v : Byte) : (s.seedLoad v).ct = s.ct := rfl
@[simp] theorem State.seedLoad_ctReady (s : State) (v : Byte) : (s.seedLoad v).ctReady = s.ctReady := rfl
@[simp] theorem State.seedLoad_rst (s : State) (v : Byte) : (s.seedLoad v).rst = s.rst := rfl

@[simp] theorem State.setLfsr_lfsr (s : State) (v : Lfsr) : (s.setLfsr v).lfsr = some v := rfl
@[simp] theorem State.setLfsr_seed (s : State) (v : Lfsr) : (s.setLfsr v).seed = s.seed := rfl
@[simp] theorem State.setLfsr_seeded (s : State) (v : Lfsr) : (s.setLfsr v).seeded = s.seeded := rfl
@[simp] theorem State.setLfsr_out (s : State) (v : Lfsr) : (s.setLfsr v).out = s.out := rfl
@[simp] theorem State.setLfsr_cnt (s : State) (v : Lfsr) : (s.setLfsr v).cnt = s.cnt := rfl
@[simp] theorem State.setLfsr_idx (s : State) (v : Lfsr) : (s.setLfsr v).idx = s.idx := rfl
@[simp] theorem State.setLfsr_ph (s : State) (v : Lfsr) : (s.setLfsr v).ph = s.ph := rfl
@[simp] theorem State.setLfsr_runm (s : State) (v : Lfsr) : (s.setLfsr v).runm = s.runm := rfl
@[simp] theorem State.setLfsr_err (s : State) (v : Lfsr) : (s.setLfsr v).err = s.err := rfl
@[simp] theorem State.setLfsr_cause (s : State) (v : Lfsr) : (s.setLfsr v).cause = s.cause := rfl
@[simp] theorem State.setLfsr_cmd (s : State) (v : Lfsr) : (s.setLfsr v).cmd = s.cmd := rfl
@[simp] theorem State.setLfsr_pt (s : State) (v : Lfsr) : (s.setLfsr v).pt = s.pt := rfl
@[simp] theorem State.setLfsr_rnd (s : State) (v : Lfsr) : (s.setLfsr v).rnd = s.rnd := rfl
@[simp] theorem State.setLfsr_rp (s : State) (v : Lfsr) : (s.setLfsr v).rp = s.rp := rfl
@[simp] theorem State.setLfsr_ct (s : State) (v : Lfsr) : (s.setLfsr v).ct = s.ct := rfl
@[simp] theorem State.setLfsr_ctReady (s : State) (v : Lfsr) : (s.setLfsr v).ctReady = s.ctReady := rfl
@[simp] theorem State.setLfsr_rst (s : State) (v : Lfsr) : (s.setLfsr v).rst = s.rst := rfl

@[simp] theorem State.setCnt_lfsr (s : State) (n : Byte) : (s.setCnt n).lfsr = s.lfsr := rfl
@[simp] theorem State.setCnt_seed (s : State) (n : Byte) : (s.setCnt n).seed = s.seed := rfl
@[simp] theorem State.setCnt_seeded (s : State) (n : Byte) : (s.setCnt n).seeded = s.seeded := rfl
@[simp] theorem State.setCnt_out (s : State) (n : Byte) : (s.setCnt n).out = s.out := rfl
@[simp] theorem State.setCnt_cnt (s : State) (n : Byte) : (s.setCnt n).cnt = n := rfl
@[simp] theorem State.setCnt_idx (s : State) (n : Byte) : (s.setCnt n).idx = s.idx := rfl
@[simp] theorem State.setCnt_ph (s : State) (n : Byte) : (s.setCnt n).ph = s.ph := rfl
@[simp] theorem State.setCnt_runm (s : State) (n : Byte) : (s.setCnt n).runm = s.runm := rfl
@[simp] theorem State.setCnt_err (s : State) (n : Byte) : (s.setCnt n).err = s.err := rfl
@[simp] theorem State.setCnt_cause (s : State) (n : Byte) : (s.setCnt n).cause = s.cause := rfl
@[simp] theorem State.setCnt_cmd (s : State) (n : Byte) : (s.setCnt n).cmd = s.cmd := rfl
@[simp] theorem State.setCnt_pt (s : State) (n : Byte) : (s.setCnt n).pt = s.pt := rfl
@[simp] theorem State.setCnt_rnd (s : State) (n : Byte) : (s.setCnt n).rnd = s.rnd := rfl
@[simp] theorem State.setCnt_rp (s : State) (n : Byte) : (s.setCnt n).rp = s.rp := rfl
@[simp] theorem State.setCnt_ct (s : State) (n : Byte) : (s.setCnt n).ct = s.ct := rfl
@[simp] theorem State.setCnt_ctReady (s : State) (n : Byte) : (s.setCnt n).ctReady = s.ctReady := rfl
@[simp] theorem State.setCnt_rst (s : State) (n : Byte) : (s.setCnt n).rst = s.rst := rfl

@[simp] theorem State.ctPush_lfsr (s : State) (v : Byte) : (s.ctPush v).lfsr = s.lfsr := rfl
@[simp] theorem State.ctPush_seed (s : State) (v : Byte) : (s.ctPush v).seed = s.seed := rfl
@[simp] theorem State.ctPush_seeded (s : State) (v : Byte) : (s.ctPush v).seeded = s.seeded := rfl
@[simp] theorem State.ctPush_out (s : State) (v : Byte) : (s.ctPush v).out = s.out := rfl
@[simp] theorem State.ctPush_cnt (s : State) (v : Byte) : (s.ctPush v).cnt = s.cnt := rfl
@[simp] theorem State.ctPush_idx (s : State) (v : Byte) : (s.ctPush v).idx = s.idx := rfl
@[simp] theorem State.ctPush_ph (s : State) (v : Byte) : (s.ctPush v).ph = s.ph := rfl
@[simp] theorem State.ctPush_runm (s : State) (v : Byte) : (s.ctPush v).runm = s.runm := rfl
@[simp] theorem State.ctPush_err (s : State) (v : Byte) : (s.ctPush v).err = s.err := rfl
@[simp] theorem State.ctPush_cause (s : State) (v : Byte) : (s.ctPush v).cause = s.cause := rfl
@[simp] theorem State.ctPush_cmd (s : State) (v : Byte) : (s.ctPush v).cmd = s.cmd := rfl
@[simp] theorem State.ctPush_pt (s : State) (v : Byte) : (s.ctPush v).pt = s.pt := rfl
@[simp] theorem State.ctPush_rnd (s : State) (v : Byte) : (s.ctPush v).rnd = s.rnd := rfl
@[simp] theorem State.ctPush_rp (s : State) (v : Byte) : (s.ctPush v).rp = s.rp := rfl
@[simp] theorem State.ctPush_ct (s : State) (v : Byte) : (s.ctPush v).ct = s.ct ++ [v] := rfl
@[simp] theorem State.ctPush_ctReady (s : State) (v : Byte) : (s.ctPush v).ctReady = s.ctReady := rfl
@[simp] theorem State.ctPush_rst (s : State) (v : Byte) : (s.ctPush v).rst = s.rst := rfl

@[simp] theorem State.emit_lfsr (s : State) (v : Byte) : (s.emit v).lfsr = s.lfsr := rfl
@[simp] theorem State.emit_seed (s : State) (v : Byte) : (s.emit v).seed = s.seed := rfl
@[simp] theorem State.emit_seeded (s : State) (v : Byte) : (s.emit v).seeded = s.seeded := rfl
@[simp] theorem State.emit_out (s : State) (v : Byte) : (s.emit v).out = v := rfl
@[simp] theorem State.emit_cnt (s : State) (v : Byte) : (s.emit v).cnt = s.cnt := rfl
@[simp] theorem State.emit_idx (s : State) (v : Byte) : (s.emit v).idx = s.idx := rfl
@[simp] theorem State.emit_ph (s : State) (v : Byte) : (s.emit v).ph = s.ph := rfl
@[simp] theorem State.emit_runm (s : State) (v : Byte) : (s.emit v).runm = s.runm := rfl
@[simp] theorem State.emit_err (s : State) (v : Byte) : (s.emit v).err = s.err := rfl
@[simp] theorem State.emit_cause (s : State) (v : Byte) : (s.emit v).cause = s.cause := rfl
@[simp] theorem State.emit_cmd (s : State) (v : Byte) : (s.emit v).cmd = s.cmd := rfl
@[simp] theorem State.emit_pt (s : State) (v : Byte) : (s.emit v).pt = s.pt := rfl
@[simp] theorem State.emit_rnd (s : State) (v : Byte) : (s.emit v).rnd = s.rnd := rfl
@[simp] theorem State.emit_rp (s : State) (v : Byte) : (s.emit v).rp = s.rp := rfl
@[simp] theorem State.emit_ct (s : State) (v : Byte) : (s.emit v).ct = s.ct ++ [v] := rfl
@[simp] theorem State.emit_ctReady (s : State) (v : Byte) : (s.emit v).ctReady = s.ctReady := rfl
@[simp] theorem State.emit_rst (s : State) (v : Byte) : (s.emit v).rst = s.rst := rfl

@[simp] theorem State.bumpIdx_lfsr (s : State) : (s.bumpIdx).lfsr = s.lfsr := rfl
@[simp] theorem State.bumpIdx_seed (s : State) : (s.bumpIdx).seed = s.seed := rfl
@[simp] theorem State.bumpIdx_seeded (s : State) : (s.bumpIdx).seeded = s.seeded := rfl
@[simp] theorem State.bumpIdx_out (s : State) : (s.bumpIdx).out = s.out := rfl
@[simp] theorem State.bumpIdx_cnt (s : State) : (s.bumpIdx).cnt = s.cnt := rfl
@[simp] theorem State.bumpIdx_idx (s : State) : (s.bumpIdx).idx = s.idx + 1 := rfl
@[simp] theorem State.bumpIdx_ph (s : State) : (s.bumpIdx).ph = s.ph := rfl
@[simp] theorem State.bumpIdx_runm (s : State) : (s.bumpIdx).runm = s.runm := rfl
@[simp] theorem State.bumpIdx_err (s : State) : (s.bumpIdx).err = s.err := rfl
@[simp] theorem State.bumpIdx_cause (s : State) : (s.bumpIdx).cause = s.cause := rfl
@[simp] theorem State.bumpIdx_cmd (s : State) : (s.bumpIdx).cmd = s.cmd := rfl
@[simp] theorem State.bumpIdx_pt (s : State) : (s.bumpIdx).pt = s.pt := rfl
@[simp] theorem State.bumpIdx_rnd (s : State) : (s.bumpIdx).rnd = s.rnd := rfl
@[simp] theorem State.bumpIdx_rp (s : State) : (s.bumpIdx).rp = s.rp := rfl
@[simp] theorem State.bumpIdx_ct (s : State) : (s.bumpIdx).ct = s.ct := rfl
@[simp] theorem State.bumpIdx_ctReady (s : State) : (s.bumpIdx).ctReady = s.ctReady := rfl
@[simp] theorem State.bumpIdx_rst (s : State) : (s.bumpIdx).rst = s.rst := rfl

@[simp] theorem State.beginRun_lfsr (s : State) : (s.beginRun).lfsr = s.lfsr := rfl
@[simp] theorem State.beginRun_seed (s : State) : (s.beginRun).seed = s.seed := rfl
@[simp] theorem State.beginRun_seeded (s : State) : (s.beginRun).seeded = s.seeded := rfl
@[simp] theorem State.beginRun_out (s : State) : (s.beginRun).out = s.out := rfl
@[simp] theorem State.beginRun_cnt (s : State) : (s.beginRun).cnt = s.cnt := rfl
@[simp] theorem State.beginRun_idx (s : State) : (s.beginRun).idx = 0 := rfl
@[simp] theorem State.beginRun_ph (s : State) : (s.beginRun).ph = s.ph := rfl
@[simp] theorem State.beginRun_runm (s : State) : (s.beginRun).runm = true := rfl
@[simp] theorem State.beginRun_err (s : State) : (s.beginRun).err = s.err := rfl
@[simp] theorem State.beginRun_cause (s : State) : (s.beginRun).cause = s.cause := rfl
@[simp] theorem State.beginRun_cmd (s : State) : (s.beginRun).cmd = s.cmd := rfl
@[simp] theorem State.beginRun_pt (s : State) : (s.beginRun).pt = s.pt := rfl
@[simp] theorem State.beginRun_rnd (s : State) : (s.beginRun).rnd = s.rnd := rfl
@[simp] theorem State.beginRun_rp (s : State) : (s.beginRun).rp = s.rp := rfl
@[simp] theorem State.beginRun_ct (s : State) : (s.beginRun).ct = s.ct := rfl
@[simp] theorem State.beginRun_ctReady (s : State) : (s.beginRun).ctReady = s.ctReady := rfl
@[simp] theorem State.beginRun_rst (s : State) : (s.beginRun).rst = s.rst := rfl

@[simp] theorem State.endRun_lfsr (s : State) : (s.endRun).lfsr = s.lfsr := rfl
@[simp] theorem State.endRun_seed (s : State) : (s.endRun).seed = s.seed := rfl
@[simp] theorem State.endRun_seeded (s : State) : (s.endRun).seeded = s.seeded := rfl
@[simp] theorem State.endRun_out (s : State) : (s.endRun).out = s.out := rfl
@[simp] theorem State.endRun_cnt (s : State) : (s.endRun).cnt = s.cnt := rfl
@[simp] theorem State.endRun_idx (s : State) : (s.endRun).idx = s.idx := rfl
@[simp] theorem State.endRun_ph (s : State) : (s.endRun).ph = s.ph := rfl
@[simp] theorem State.endRun_runm (s : State) : (s.endRun).runm = false := rfl
@[simp] theorem State.endRun_err (s : State) : (s.endRun).err = s.err := rfl
@[simp] theorem State.endRun_cause (s : State) : (s.endRun).cause = s.cause := rfl
@[simp] theorem State.endRun_cmd (s : State) : (s.endRun).cmd = s.cmd := rfl
@[simp] theorem State.endRun_pt (s : State) : (s.endRun).pt = s.pt := rfl
@[simp] theorem State.endRun_rnd (s : State) : (s.endRun).rnd = s.rnd := rfl
@[simp] theorem State.endRun_rp (s : State) : (s.endRun).rp = s.rp := rfl
@[simp] theorem State.endRun_ct (s : State) : (s.endRun).ct = s.ct := rfl
@[simp] theorem State.endRun_ctReady (s : State) : (s.endRun).ctReady = s.ctReady := rfl
@[simp] theorem State.endRun_rst (s : State) : (s.endRun).rst = s.rst := rfl

@[simp] theorem State.consumeRandom_lfsr (s : State) : (s.consumeRandom).lfsr = s.lfsr := rfl
@[simp] theorem State.consumeRandom_seed (s : State) : (s.consumeRandom).seed = s.seed := rfl
@[simp] theorem State.consumeRandom_seeded (s : State) : (s.consumeRandom).seeded = s.seeded := rfl
@[simp] theorem State.consumeRandom_out (s : State) : (s.consumeRandom).out = s.out := rfl
@[simp] theorem State.consumeRandom_cnt (s : State) : (s.consumeRandom).cnt = s.cnt := rfl
@[simp] theorem State.consumeRandom_idx (s : State) : (s.consumeRandom).idx = s.idx := rfl
@[simp] theorem State.consumeRandom_ph (s : State) : (s.consumeRandom).ph = s.ph := rfl
@[simp] theorem State.consumeRandom_runm (s : State) : (s.consumeRandom).runm = s.runm := rfl
@[simp] theorem State.consumeRandom_err (s : State) : (s.consumeRandom).err = s.err := rfl
@[simp] theorem State.consumeRandom_cause (s : State) : (s.consumeRandom).cause = s.cause := rfl
@[simp] theorem State.consumeRandom_cmd (s : State) : (s.consumeRandom).cmd = s.cmd := rfl
@[simp] theorem State.consumeRandom_pt (s : State) : (s.consumeRandom).pt = s.pt := rfl
@[simp] theorem State.consumeRandom_rnd (s : State) : (s.consumeRandom).rnd = s.rnd := rfl
@[simp] theorem State.consumeRandom_rp (s : State) : (s.consumeRandom).rp = s.rp + 1 := rfl
@[simp] theorem State.consumeRandom_ct (s : State) : (s.consumeRandom).ct = s.ct := rfl
@[simp] theorem State.consumeRandom_ctReady (s : State) : (s.consumeRandom).ctReady = s.ctReady := rfl
@[simp] theorem State.consumeRandom_rst (s : State) : (s.consumeRandom).rst = s.rst := rfl

@[simp] theorem State.raiseFault_lfsr (s : State) (c : Cause) : (s.raiseFault c).lfsr = s.lfsr := rfl
@[simp] theorem State.raiseFault_seed (s : State) (c : Cause) : (s.raiseFault c).seed = s.seed := rfl
@[simp] theorem State.raiseFault_seeded (s : State) (c : Cause) : (s.raiseFault c).seeded = s.seeded := rfl
@[simp] theorem State.raiseFault_out (s : State) (c : Cause) : (s.raiseFault c).out = s.out := rfl
@[simp] theorem State.raiseFault_cnt (s : State) (c : Cause) : (s.raiseFault c).cnt = s.cnt := rfl
@[simp] theorem State.raiseFault_idx (s : State) (c : Cause) : (s.raiseFault c).idx = s.idx := rfl
@[simp] theorem State.raiseFault_ph (s : State) (c : Cause) : (s.raiseFault c).ph = .halt := rfl
@[simp] theorem State.raiseFault_runm (s : State) (c : Cause) : (s.raiseFault c).runm = s.runm := rfl
@[simp] theorem State.raiseFault_err (s : State) (c : Cause) : (s.raiseFault c).err = true := rfl
@[simp] theorem State.raiseFault_cause (s : State) (c : Cause) : (s.raiseFault c).cause = causeCode c := rfl
@[simp] theorem State.raiseFault_cmd (s : State) (c : Cause) : (s.raiseFault c).cmd = s.cmd := rfl
@[simp] theorem State.raiseFault_pt (s : State) (c : Cause) : (s.raiseFault c).pt = s.pt := rfl
@[simp] theorem State.raiseFault_rnd (s : State) (c : Cause) : (s.raiseFault c).rnd = s.rnd := rfl
@[simp] theorem State.raiseFault_rp (s : State) (c : Cause) : (s.raiseFault c).rp = s.rp := rfl
@[simp] theorem State.raiseFault_ct (s : State) (c : Cause) : (s.raiseFault c).ct = s.ct := rfl
@[simp] theorem State.raiseFault_ctReady (s : State) (c : Cause) : (s.raiseFault c).ctReady = s.ctReady := rfl
@[simp] theorem State.raiseFault_rst (s : State) (c : Cause) : (s.raiseFault c).rst = s.rst := rfl

@[simp] theorem State.applyReset_lfsr (s : State) : (s.applyReset).lfsr = none := rfl
@[simp] theorem State.applyReset_seed (s : State) : (s.applyReset).seed = none := rfl
@[simp] theorem State.applyReset_seeded (s : State) : (s.applyReset).seeded = false := rfl
@[simp] theorem State.applyReset_out (s : State) : (s.applyReset).out = Config.outAfterReset := rfl
@[simp] theorem State.applyReset_cnt (s : State) : (s.applyReset).cnt = 0 := rfl
@[simp] theorem State.applyReset_idx (s : State) : (s.applyReset).idx = 0 := rfl
@[simp] theorem State.applyReset_ph (s : State) : (s.applyReset).ph = .idle := rfl
@[simp] theorem State.applyReset_runm (s : State) : (s.applyReset).runm = false := rfl
@[simp] theorem State.applyReset_err (s : State) : (s.applyReset).err = false := rfl
@[simp] theorem State.applyReset_cause (s : State) : (s.applyReset).cause = 0 := rfl
@[simp] theorem State.applyReset_cmd (s : State) : (s.applyReset).cmd = s.cmd := rfl
@[simp] theorem State.applyReset_pt (s : State) : (s.applyReset).pt = s.pt := rfl
@[simp] theorem State.applyReset_rnd (s : State) : (s.applyReset).rnd = s.rnd := rfl
@[simp] theorem State.applyReset_rp (s : State) : (s.applyReset).rp = s.rp := rfl
@[simp] theorem State.applyReset_ct (s : State) : (s.applyReset).ct = s.ct := rfl
@[simp] theorem State.applyReset_ctReady (s : State) : (s.applyReset).ctReady = s.ctReady := rfl
@[simp] theorem State.applyReset_rst (s : State) : (s.applyReset).rst = false := rfl

/-! The derived views depend on the fields they name, and on nothing else. -/

@[simp] theorem State.enterPhase_busy (s : State) (p : Phase) : (s.enterPhase p).busy = phaseBusy p := rfl
@[simp] theorem State.raiseFault_busy (s : State) (c : Cause) : (s.raiseFault c).busy = false := rfl
@[simp] theorem State.applyReset_busy (s : State) : s.applyReset.busy = false := rfl
@[simp] theorem State.consumeRandom_ptRead (s : State) (k : Nat) : s.consumeRandom.ptRead k = s.ptRead k := rfl

end Sys2Proof.Machine
end

