-- ==== Sys2Proof/Laws/Ops.lean ====
section
/-!
SUPPORT. For each shared operation, what it can answer. Proofs cite these instead of unfolding the operation.
-/

namespace Sys2Proof.Machine

variable {s t : State}

theorem requireSeeded_of_seeded {go : Result} (h : s.seeded = true) : s.requireSeeded go = go := by
  simp [State.requireSeeded, h]

theorem requireSeeded_of_not_seeded {go : Result} (h : s.seeded = false) :
    s.requireSeeded go = .next (s.consumeCommand.raiseFault .notSeeded) := by
  simp [State.requireSeeded, h]

/-- A command that needs a seed either acts, or takes `NotSeeded` and nothing else happens (R110). -/
theorem requireSeeded_next {go : Result} (h : s.requireSeeded go = .next t) :
    (s.seeded = true ∧ go = .next t) ∨
      (s.seeded = false ∧ t = s.consumeCommand.raiseFault .notSeeded) := by
  cases hs : s.seeded with
  | true => exact .inl ⟨rfl, (requireSeeded_of_seeded hs).symm.trans h⟩
  | false =>
    rw [requireSeeded_of_not_seeded hs] at h
    cases h
    exact .inr ⟨rfl, rfl⟩

theorem readLfsr_of_some {go : Lfsr → Result} {v : Lfsr} (h : s.lfsr = some v) : s.readLfsr go = go v := by
  simp [State.readLfsr, h]

theorem readLfsr_of_none {go : Lfsr → Result} (h : s.lfsr = none) : s.readLfsr go = .fault .lfsrAbsent := by
  simp [State.readLfsr, h]

/-- Reading `S` goes on only with a value that `S` holds. -/
theorem readLfsr_next {go : Lfsr → Result} (h : s.readLfsr go = .next t) :
    ∃ v, s.lfsr = some v ∧ go v = .next t := by
  cases hv : s.lfsr with
  | none => rw [readLfsr_of_none hv] at h; cases h
  | some v => exact ⟨v, rfl, (readLfsr_of_some hv).symm.trans h⟩

/-- A push happens whole, or nothing changes (R117). -/
theorem whenConsumerReady_next {u : State} (h : s.whenConsumerReady u = .next t) :
    (s.ctReady = true ∧ t = u) ∨ (s.ctReady = false ∧ t = s) := by
  unfold State.whenConsumerReady at h
  split at h <;> cases h <;> simp_all

theorem whenRandomOffered_of_some {use : Byte → State → State} {r : Byte} (h : s.offeredRandom = some r) :
    s.whenRandomOffered use = .next (use r s.consumeRandom) := by
  simp [State.whenRandomOffered, h]

theorem whenRandomOffered_of_none {use : Byte → State → State} (h : s.offeredRandom = none) :
    s.whenRandomOffered use = .next s := by
  simp [State.whenRandomOffered, h]

/-- A draw consumes the one byte `RND[RP]`, or the core waits unchanged (R35, R117). -/
theorem whenRandomOffered_next {use : Byte → State → State} (h : s.whenRandomOffered use = .next t) :
    (∃ r, s.offeredRandom = some r ∧ t = use r s.consumeRandom) ∨ (s.offeredRandom = none ∧ t = s) := by
  cases hr : s.offeredRandom with
  | none =>
    rw [whenRandomOffered_of_none hr] at h
    cases h
    exact .inr ⟨rfl, rfl⟩
  | some r =>
    rw [whenRandomOffered_of_some hr] at h
    cases h
    exact .inl ⟨r, rfl, rfl⟩

/-- The offered byte is the head of the tape still ahead (R35). -/
theorem offeredRandom_lt {r : Byte} (h : s.offeredRandom = some r) : s.rp < s.rnd.length := by
  unfold State.offeredRandom at h
  exact (List.getElem?_eq_some_iff.mp h).1

end Sys2Proof.Machine
end

