-- ==== Sys2Proof/Laws/Exec.lean ====
section
/-!
SUPPORT. What accepting each command can answer (R96).
-/

namespace Sys2Proof.Machine

variable {s t : State}

theorem execInit_next {i : Byte} (h : execInit i s = .next t) :
    (i = 0 ∧ t = s.consumeCommand.enterPhase .seedw) ∨
      (i ≠ 0 ∧ t = (s.consumeCommand.seedLoad i).enterPhase .idle) := by
  unfold execInit isUnset at h
  split at h <;> cases h <;> simp_all

theorem execStep_next (h : execStep s = .next t) :
    (∃ v, s.seeded = true ∧ s.lfsr = some v ∧ t = (s.consumeCommand.setLfsr (lfsrStep v)).enterPhase .idle) ∨
      (s.seeded = false ∧ t = s.consumeCommand.raiseFault .notSeeded) := by
  obtain ⟨hs, h⟩ | h := requireSeeded_next h
  · obtain ⟨v, hv, h⟩ := readLfsr_next h
    cases h
    exact .inl ⟨v, hs, hv, rfl⟩
  · exact .inr h

theorem execAdv_next (h : execAdv s = .next t) :
    (s.seeded = true ∧ t = s.consumeCommand.enterPhase .cntw) ∨
      (s.seeded = false ∧ t = s.consumeCommand.raiseFault .notSeeded) := by
  obtain ⟨hs, h⟩ | h := requireSeeded_next h
  · cases h
    exact .inl ⟨hs, rfl⟩
  · exact .inr h

theorem execEncb_next {p : Byte} (h : execEncb p s = .next t) :
    (∃ v, s.seeded = true ∧ s.lfsr = some v ∧ s.ctReady = true ∧
        t = (s.consumeCommand.emit (encrypted p v)).enterPhase .idle) ∨
      (s.seeded = true ∧ s.ctReady = false ∧ t = s) ∨
      (s.seeded = false ∧ t = s.consumeCommand.raiseFault .notSeeded) := by
  obtain ⟨hs, h⟩ | h := requireSeeded_next h
  · obtain ⟨v, hv, h⟩ := readLfsr_next h
    obtain ⟨hr, rfl⟩ | ⟨hr, rfl⟩ := whenConsumerReady_next h
    · exact .inl ⟨v, hs, hv, hr, rfl⟩
    · exact .inr (.inl ⟨hs, hr, rfl⟩)
  · exact .inr (.inr h)

theorem execRun_next (h : execRun s = .next t) : t = s.consumeCommand.beginRun.enterPhase .seedw := by
  cases h
  rfl

end Sys2Proof.Machine
end

