-- ==== Sys2Proof/Laws/PerInstr.lean ====
section
/-!
SUPPORT. A statement about every command as syntax: its word is selected by its own row of the opcode table (R46), its
fields are well formed (R48) and its operand is in range (R47).
-/

namespace Sys2Proof.Laws.EncodingInTable

/-- The word of `i` matches the row of `i`, and its fields are those of a defined word. -/
def Statement (i : Instr) : Prop :=
  (tableRow i).selects (encode i) = true ∧ (fieldsOf (encode i)).wellFormed = true ∧ i.wellFormed = true

theorem init (i : Byte) : Statement (.init i) := by
  revert i
  unfold Statement
  decide

theorem step : Statement .step := by
  unfold Statement
  decide

theorem adv : Statement .adv := by
  unfold Statement
  decide

theorem encb (p : Byte) : Statement (.encb p) := by
  revert p
  unfold Statement
  decide

theorem run : Statement .run := by
  unfold Statement
  decide

end Sys2Proof.Laws.EncodingInTable
end

