-- ==== Sys2Proof/Laws/Ports.lean ====
section
/-!
SUPPORT. When the word at the command port is an ENCB that pushes (R55, R117).
-/

namespace Sys2Proof.Machine

variable {s : State} {w : CmdWord} {i : Instr}

theorem isEncb_iff : isEncb i = true ↔ ∃ p, i = .encb p := by
  cases i <;> simp [isEncb]

theorem encbPushes_of_none (h : s.offeredCommand = none) : s.encbPushes = false := by
  simp [State.encbPushes, h]

theorem encbPushes_of_reserved {why : Reserved} (h : s.offeredCommand = some w) (hd : decode w = .reserved why) :
    s.encbPushes = false := by
  simp [State.encbPushes, h, hd]

theorem encbPushes_of_command (h : s.offeredCommand = some w) (hd : decode w = .command i) :
    s.encbPushes = (isEncb i && s.seeded) := by
  simp [State.encbPushes, h, hd]

end Sys2Proof.Machine
end

