-- ==== Sys2Proof/Laws/Step.lean ====
section
/-!
SUPPORT. What each transition of the sequencer can answer, and which transition a step is.
-/

namespace Sys2Proof.Machine

variable {s t : State}

theorem seedDraw_next (h : seedDraw s = .next t) :
    (s.offeredRandom = some 0 ∧ t = s.consumeRandom) ∨
      (∃ r, r ≠ 0 ∧ s.offeredRandom = some r ∧
        t = (s.consumeRandom.seedLoad r).enterPhase (if s.runm then .cntw else .idle)) ∨
      (s.offeredRandom = none ∧ t = s) := by
  obtain ⟨r, hr, h⟩ | h := whenRandomOffered_next h
  · by_cases h0 : r = 0
    · exact .inl ⟨h0 ▸ hr, h.trans (if_pos h0)⟩
    · exact .inr (.inl ⟨r, h0, hr, h.trans (if_neg h0)⟩)
  · exact .inr (.inr h)

theorem countDraw_next (h : countDraw s = .next t) :
    (∃ r, s.offeredRandom = some r ∧ t = (s.consumeRandom.setCnt r).enterPhase .steps) ∨
      (s.offeredRandom = none ∧ t = s) :=
  whenRandomOffered_next h

theorem stepOrLeave_next (h : stepOrLeave s = .next t) :
    (∃ v, s.cnt ≠ 0 ∧ s.lfsr = some v ∧ t = (s.setLfsr (lfsrStep v)).setCnt (s.cnt - 1)) ∨
      (s.cnt = 0 ∧ s.runm = false ∧ t = s.enterPhase .idle) ∨
      (s.cnt = 0 ∧ s.runm = true ∧ s.idx < s.pt.length ∧ t = s.enterPhase .enc) ∨
      (s.cnt = 0 ∧ s.runm = true ∧ s.pt.length ≤ s.idx ∧ t = s.endRun.enterPhase .idle) := by
  unfold stepOrLeave at h
  split at h
  · obtain ⟨v, hv, h⟩ := readLfsr_next h
    cases h
    exact .inl ⟨v, by assumption, hv, rfl⟩
  · split at h
    · cases h
      exact .inr (.inl (by simp_all))
    · split at h <;> cases h <;> simp_all

theorem encryptByte_next (h : encryptByte s = .next t) :
    (∃ p v, s.ptRead s.idx = some p ∧ s.lfsr = some v ∧ s.ctReady = true ∧
        t = ((s.emit (encrypted p v)).bumpIdx).enterPhase .cntw) ∨
      (s.ctReady = false ∧ t = s) := by
  unfold encryptByte at h
  split at h
  · cases h
  · next p hp =>
    obtain ⟨v, hv, h⟩ := readLfsr_next h
    obtain ⟨hr, rfl⟩ | ⟨hr, rfl⟩ := whenConsumerReady_next h
    · exact .inl ⟨p, v, hp, hv, hr, rfl⟩
    · exact .inr ⟨hr, rfl⟩

/-- A step is a reset, a wait in `IDLE`, the acceptance of a word, or the transition of a busy phase or of `HALT`. -/
theorem step_cases (h : step s = .next t) :
    (s.rst = true ∧ t = s.applyReset) ∨
      s.rst = false ∧
        ((s.ph = .idle ∧ s.offeredCommand = none ∧ t = s) ∨
          (∃ w why, s.ph = .idle ∧ s.offeredCommand = some w ∧ decode w = .reserved why ∧
            t = s.consumeCommand.raiseFault .reservedCommand) ∨
          (∃ w i, s.ph = .idle ∧ s.offeredCommand = some w ∧ decode w = .command i ∧ exec i s = .next t) ∨
          (s.ph = .seedw ∧ seedDraw s = .next t) ∨
          (s.ph = .cntw ∧ countDraw s = .next t) ∨
          (s.ph = .steps ∧ stepOrLeave s = .next t) ∨
          (s.ph = .enc ∧ encryptByte s = .next t) ∨
          (s.ph = .halt ∧ t = s)) := by
  unfold step at h
  split at h
  · cases h
    exact .inl ⟨by assumption, rfl⟩
  · refine .inr ⟨by simp_all, ?_⟩
    cases hp : s.ph with
    | idle =>
      simp only [hp] at h
      cases hc : s.offeredCommand with
      | none =>
        simp only [hc] at h
        cases h
        simp
      | some w =>
        simp only [hc] at h
        cases hd : decode w with
        | reserved why =>
          simp only [hd] at h
          cases h
          exact .inr (.inl ⟨w, why, rfl, rfl, hd, rfl⟩)
        | command i =>
          simp only [hd] at h
          exact .inr (.inr (.inl ⟨w, i, rfl, rfl, hd, h⟩))
    | halt =>
      simp only [hp] at h
      cases h
      simp
    | _ => simp_all

/-! Which transition a step is, from the phase. -/

theorem step_reset (hr : s.rst = true) : step s = .next s.applyReset := by
  simp [step, hr]

theorem step_seedw (hr : s.rst = false) (hp : s.ph = .seedw) : step s = seedDraw s := by
  simp [step, hr, hp]

theorem step_cntw (hr : s.rst = false) (hp : s.ph = .cntw) : step s = countDraw s := by
  simp [step, hr, hp]

theorem step_steps (hr : s.rst = false) (hp : s.ph = .steps) : step s = stepOrLeave s := by
  simp [step, hr, hp]

theorem step_enc (hr : s.rst = false) (hp : s.ph = .enc) : step s = encryptByte s := by
  simp [step, hr, hp]

theorem step_halt (hr : s.rst = false) (hp : s.ph = .halt) : step s = .next s := by
  simp [step, hr, hp, haltWait]

end Sys2Proof.Machine
end

