-- ==== Sys2Proof/Laws/Run.lean ====
section
/-!
SUPPORT. How runs of several steps compose.
-/

namespace Sys2Proof.Machine

@[simp] theorem runSteps_zero (s : State) : runSteps 0 s = .next s := rfl

theorem runSteps_succ_of_next {s t : State} (n : Nat) (h : step s = .next t) : runSteps (n + 1) s = runSteps n t := by
  simp [runSteps, h]

/-- A run of one step more begins with a step that answers a next state. -/
theorem runSteps_succ_next {s u : State} {n : Nat} (h : runSteps (n + 1) s = .next u) :
    ∃ t, step s = .next t ∧ runSteps n t = .next u := by
  unfold runSteps at h
  split at h
  · exact ⟨_, by assumption, h⟩
  · cases h
  · cases h

theorem runSteps_add {s t : State} {m : Nat} (n : Nat) (h : runSteps m s = .next t) :
    runSteps (m + n) s = runSteps n t := by
  induction m generalizing s with
  | zero =>
    cases h
    rw [Nat.zero_add]
  | succ m ih =>
    obtain ⟨u, hu, h⟩ := runSteps_succ_next h
    rw [Nat.succ_add, runSteps_succ_of_next _ hu, ih h]

end Sys2Proof.Machine
end

