-- ==== Sys2Proof/Tests/Slice0.lean ====
section
/-!
SUPPORT. Checks of the model against words and vectors written out in the spec, ill-formed terms the checks refuse, and for
each statement with hypotheses a state and operands that meet all of them.
-/

namespace Sys2Proof.Tests

open Sys2Proof Sys2Proof.Machine

/-- The next state of an outcome, for comparing one step's result. -/
def nextOf (r : Result) : Option State :=
  match r with
  | .next t => some t
  | .fault _ => none
  | .refused _ => none

/-- The core after `INIT 0xB5` (program P2): `S = SEED = 0x16A`. -/
def seeded : State := { State.reset with lfsr := some 0x16A, seed := some 0x16A, seeded := true }

/-- `s` with the word `w` offered. -/
def offer (s : State) (w : CmdWord) : State := { s with cmd := [w] }

/-- Program P3: RUN over "Hi!". -/
def programP3 : State :=
  { State.reset with cmd := [0x400], pt := [0x48, 0x69, 0x21], rnd := [0x00, 0x4C, 0x02, 0x00, 0x05, 0xFF] }

/-- Program P6: RUN over P3's ciphertext. -/
def programP6 : State :=
  { State.reset with cmd := [0x400], pt := [0x7B, 0x5A, 0xB7], rnd := [0x98, 0x02, 0x00, 0x05, 0x07] }

/-- P3 at row 17 of its trace: in `ENC` with `IDX = 2`. -/
def inEnc : State :=
  { programP3 with
    cmd := [], lfsr := some 0x116, seed := some 0x130, seeded := true, ph := .enc, runm := true, idx := 2, out := 0x5A,
    ct := [0x7B, 0x5A], rp := 5 }

/-! ## The checks refuse ill-formed terms (R48, R52) -/

theorem test_operand_256_refused : operandInRange 256 = false := by decide

theorem test_unassigned_op_refused : (CommandFields.opAssigned { op := 5, imm := 0 }) = false := by decide

theorem test_step_operand_refused : (CommandFields.operandAllowed { op := 1, imm := 1 }) = false := by decide

theorem test_ill_formed_fields_refused :
    (CommandFields.wellFormed { op := 7, imm := 0 }) = false ∧ (CommandFields.wellFormed { op := 4, imm := 0x80 }) = false := by
  decide

/-! ## Decoding words written out from the table of R46 -/

theorem test_decode_init : decode 0b00010110101 = .command (.init 0xB5) := by decide

theorem test_decode_step : decode 0b00100000000 = .command .step := by decide

theorem test_decode_adv : decode 0b01000000000 = .command .adv := by decide

theorem test_decode_encb : decode 0b01101000001 = .command (.encb 0x41) := by decide

theorem test_decode_run : decode 0b10000000000 = .command .run := by decide

/-- The host's numbering of a row: 11 bits in two bytes, and a number that is no 11-bit word (R39). -/
theorem test_table_word : decodeTableWord 16 0x3FF = some (.encb 0xFF) ∧ decodeTableWord 16 0x800 = none := by decide

/-! ## The pure functions on the spec's vectors -/

/-- `95_test_vectors.md` §2.1. -/
theorem test_seedBits : seedBits 1 = 0x100 ∧ seedBits 0x4C = 0x130 ∧ seedBits 0xB5 = 0x16A ∧ seedBits 0xFF = 0x1FE := by
  decide

/-- `95_test_vectors.md` §2.2: each tap alone, index 1 which is none, all five non-taps. -/
theorem test_lfsrStep : lfsrStep 0x100 = 0x180 ∧ lfsrStep 0x008 = 0x104 ∧ lfsrStep 0x002 = 0x101 ∧ lfsrStep 0x001 = 0x100
    ∧ lfsrStep 0x080 = 0x040 ∧ lfsrStep 0x0F4 = 0x07A ∧ lfsrStep 0x10B = 0x085 := by
  decide

/-- `95_test_vectors.md` §2.3. -/
theorem test_key : key 0x000 = 0x01 ∧ key 0x040 = 0x03 ∧ key 0x001 = 0x81 ∧ key 0x07F = 0x00 ∧ key 0x100 = 0xFE
    ∧ key 0x16A = 0xA8 ∧ key 0x155 = 0x54 ∧ key 0x17F = 0x00 := by
  decide

/-! ## One step of each command (programs P1, P2, P4, tables §2.4 to §2.6) -/

theorem test_init_step : (nextOf (step (State.reset.withFetchWord 16 0x0B5))) = some seeded := by decide

theorem test_init_unset_step :
    (nextOf (step (seeded.withFetchWord 16 0x000))).map (fun t => (t.ph, t.lfsr, t.runm)) = some (.seedw, some 0x16A, false) := by
  decide

theorem test_step_step :
    (nextOf (step (offer { seeded with lfsr := some 0x180 } 0x100))).map (fun t => (t.lfsr, t.seed)) =
      some (some 0x1C0, some 0x16A) := by
  decide

theorem test_step_unseeded :
    (nextOf (step (State.reset.withFetchWord 16 0x100))).map (fun t => (t.status, t.lfsr, t.cmd)) = some (0x14, none, []) := by
  decide

theorem test_encb_step :
    (nextOf (step (offer seeded 0x341))).map (fun t => (t.out, t.ct, t.lfsr)) = some (0xE9, [0xE9], some 0x16A) := by
  decide

theorem test_encb_waits : nextOf (step { offer seeded 0x341 with ctReady := false }) = some { offer seeded 0x341 with ctReady := false } := by
  decide

theorem test_adv_step : (nextOf (step (offer seeded 0x200))).map (fun t => (t.ph, t.rp)) = some (.cntw, 0) := by decide

theorem test_adv_unseeded : (nextOf (step (offer State.reset 0x200))).map (fun t => (t.ph, t.cause, t.rp)) = some (.halt, 2, 0) := by
  decide

theorem test_run_step : (nextOf (step programP3)).map (fun t => (t.ph, t.runm, t.idx, t.seeded)) = some (.seedw, true, 0, false) := by
  decide

theorem test_reserved_step :
    (nextOf (step (offer { seeded with lfsr := some 0x120, seed := some 0x120 } 0x101))).map (fun t => (t.status, t.lfsr)) =
      some (0x0D, some 0x120) := by
  decide

/-- P3, row 18. -/
theorem test_encrypt_transition :
    (nextOf (step inEnc)).map (fun t => (t.ph, t.out, t.ct, t.idx)) = some (.cntw, 0xB7, [0x7B, 0x5A, 0xB7], 3) := by
  decide

/-- R52, R53: a quoted character, a comment, a pseudo-instruction, an operand too large, an operand too many. -/
theorem test_assemble :
    assemble ['E', 'N', 'C', 'B', ' ', '\'', 'A', '\'', ' ', ';', 'x'] = .word 0x341
      ∧ assemble ['I', 'N', 'I', 'T', ' ', '0', 'x', 'B', '5'] = .word 0x0B5
      ∧ assemble ['I', 'N', 'I', 'T', 'R'] = .word 0x000
      ∧ assemble ['I', 'N', 'I', 'T', ' ', '2', '5', '6'] = .error
      ∧ assemble ['S', 'T', 'E', 'P', ' ', '0'] = .error
      ∧ assemble [' ', ';'] = .blank := by
  decide

/-! ## Witnesses: states and operands that meet the hypotheses of each statement -/

theorem witness_DecodeEncodeRoundTrip : (Instr.encb 0xFF).wellFormed = true ∧ decode 0x3FF = .command (.encb 0xFF) := by decide

theorem witness_ReservedWordsFault :
    (offer State.reset 0x101).rst = false ∧ (offer State.reset 0x101).ph = .idle
      ∧ (offer State.reset 0x101).offeredCommand = some 0x101 ∧ decode 0x101 = .reserved .stepOperand
      ∧ decode 0x2FF = .reserved .advOperand ∧ decode 0x401 = .reserved .runOperand ∧ decode 0x7FF = .reserved .unassignedOp := by
  decide

theorem witness_AssembledWords : '\x7f'.toNat < 128 := by decide

theorem witness_SeedBitsAreDigitsRightPadded : (1 : Byte) ≠ 0 ∧ (255 : Byte) ≠ 0 := by decide

theorem witness_SeedShapes : (127 : Byte) ≠ 0 ∧ 2 * (127 : Byte).toNat ≤ 255 := by decide

theorem witness_StepShiftsFeedbackIntoHead : 1 ≤ 8 ∧ 8 ≤ 8 := by decide

theorem witness_StepIsInvertibleAndLinear : (7 : Nat) < 8 ∧ (0x001 : Lfsr) ≠ 0 ∧ (255 : Byte) ≠ 0 := by decide

theorem witness_StateCycles : ((0x0DB, 3) : Lfsr × Nat) ∈ cycleTable ∧ 0 < 2 ∧ 2 < 3 ∧ stepN 0x0DB 2 = 0x1B6 := by decide

theorem witness_KeyGateForm : (6 : Nat) < 7 := by decide

theorem witness_KeyRangeAndAliasing :
    bitAt 0x000 0 = false ∧ bitAt 0x100 0 = true ∧ key 0x100 ≠ 0 ∧ (255 : Byte) ≠ 0 := by
  decide

theorem witness_ResetInAnyPhase_request : ({ inEnc with rst := true } : State).rst = true := by decide

theorem witness_ResetInAnyPhase_halt :
    ∃ t, step { State.reset with ph := .halt, err := true, cause := 1, rst := true } = .next t ∧ t.ph ≠ .halt :=
  ⟨_, rfl, by decide⟩

theorem witness_ResetInAnyPhase_redraw :
    (∀ b, ({ State.reset with ph := .seedw, rst := true, rnd := [0] } : State).offeredRandom = some b → b = 0)
      ∧ ∃ t, step { State.reset with ph := .seedw, rst := true, rnd := [0] } = .next t ∧ t.ph ≠ .seedw :=
  ⟨fun _ h => (Option.some.inj h).symm, _, rfl, by decide⟩

theorem witness_StepRunsOfferedCommand :
    (offer seeded 0x200).rst = false ∧ (offer seeded 0x200).ph = .idle ∧ (offer seeded 0x200).offeredCommand = some 0x200
      ∧ decode 0x200 = .command .adv := by
  decide

theorem witness_InitLoadsSeedOrEntersRedraw : (1 : Byte) ≠ 0 := by decide

theorem witness_StepCommandAdvancesState :
    seeded.seeded = true ∧ seeded.lfsr = some 0x16A ∧ State.reset.seeded = false ∧ (255 : Byte) ≠ 0 := by
  decide

theorem witness_EncbPushesXorOfKey :
    seeded.seeded = true ∧ seeded.lfsr = some 0x16A ∧ seeded.ctReady = true ∧ State.reset.seeded = false ∧ key 0x1FF = 0 := by
  decide

theorem witness_AdvEntersCountDraw : seeded.seeded = true ∧ State.reset.seeded = false := by decide

theorem witness_CommandFrames :
    (∃ t, exec (.init 1) State.reset = .next t) ∧ (∃ t, exec .step seeded = .next t) ∧ (∃ t, exec .adv seeded = .next t)
      ∧ (∃ t, exec (.encb 1) seeded = .next t) ∧ (∃ t, exec .run State.reset = .next t)
      ∧ ∃ t, exec (.encb 1) State.reset = .next t :=
  ⟨⟨_, rfl⟩, ⟨_, rfl⟩, ⟨_, rfl⟩, ⟨_, rfl⟩, ⟨_, rfl⟩, ⟨_, rfl⟩⟩

/-- A zero and a non-zero draw, in a RUN and outside one. -/
theorem witness_SeedDrawTransition :
    (∃ r, ({ programP3 with ph := .seedw, runm := true } : State).offeredRandom = some r ∧ r = 0)
      ∧ (∃ r, ({ programP3 with ph := .seedw, runm := true, rp := 1 } : State).offeredRandom = some r ∧ r ≠ 0)
      ∧ ∃ r, ({ programP3 with ph := .seedw, rp := 1 } : State).offeredRandom = some r ∧ r ≠ 0 :=
  ⟨⟨_, rfl, rfl⟩, ⟨_, rfl, by decide⟩, ⟨_, rfl, by decide⟩⟩

theorem witness_CountDrawTransition :
    ({ inEnc with ph := .cntw } : State).rst = false ∧ ({ inEnc with ph := .cntw } : State).offeredRandom = some 0xFF := by
  decide

/-- `CNT != 0`, and each of the three ways out with `CNT = 0`. -/
theorem witness_StepsTransition :
    ({ inEnc with ph := .steps, cnt := 255 } : State).cnt ≠ 0 ∧ inEnc.lfsr = some 0x116 ∧ inEnc.cnt = 0 ∧ inEnc.rst = false
      ∧ seeded.runm = false ∧ inEnc.runm = true ∧ inEnc.idx < inEnc.pt.length
      ∧ ¬({ inEnc with idx := 3 } : State).idx < inEnc.pt.length := by
  decide

theorem witness_EncryptTransition :
    inEnc.rst = false ∧ inEnc.ph = .enc ∧ inEnc.lfsr = some 0x116 ∧ inEnc.pt[inEnc.idx]? = some 0x21 ∧ inEnc.ctReady = true := by
  decide

theorem witness_WaitsChangeNothing_draw :
    State.reset.rst = false ∧ ({ State.reset with ph := .seedw } : State).ph = .seedw
      ∧ ({ State.reset with ph := .seedw } : State).offeredRandom = none
      ∧ ({ seeded with ph := .cntw } : State).ph = .cntw ∧ ({ seeded with ph := .cntw } : State).offeredRandom = none := by
  decide

theorem witness_WaitsChangeNothing_push :
    inEnc.ph = .enc ∧ inEnc.idx < inEnc.pt.length ∧ inEnc.lfsr ≠ none
      ∧ ({ offer seeded 0x341 with ctReady := false } : State).Offered (.encb 0x41) ∧ seeded.lfsr ≠ none := by
  decide

theorem witness_WaitsChangeNothing_idle : State.reset.ph = .idle ∧ State.reset.offeredCommand = none := by decide

theorem witness_HaltIsKept :
    ({ State.reset with ph := .halt, err := true, cause := 2, cmd := [0x400] } : State).ph = .halt ∧ State.reset.rst = false := by
  decide

theorem witness_ModelStops :
    ({ State.reset with seeded := true } : State).seeded = true ∧ ({ State.reset with seeded := true } : State).lfsr = none
      ∧ ({ State.reset with ph := .steps, cnt := 1 } : State).cnt ≠ 0
      ∧ ({ inEnc with lfsr := none } : State).idx < inEnc.pt.length
      ∧ inEnc.pt.length ≤ ({ inEnc with idx := 3 } : State).idx := by
  decide

theorem witness_OnlyTwoFaults : State.reset.err = false ∧ ∃ t, step (offer State.reset 0x100) = .next t ∧ t.err = true :=
  ⟨rfl, _, rfl, rfl⟩

/-- An unseeded ENCB, and a reserved word, each with the consumer not ready. -/
theorem witness_OnlyTwoFaults_encb :
    (∃ t, step { offer State.reset 0x341 with ctReady := false } = .next t ∧ t.err = true ∧ t.cause = 2)
      ∧ ∃ t, step { offer State.reset 0x500 with ctReady := false } = .next t ∧ t.err = true ∧ t.cause = 1 :=
  ⟨⟨_, rfl, rfl, rfl⟩, _, rfl, rfl, rfl⟩

theorem witness_FaultsArePrecise : seeded.err = false ∧ ∃ t, step (offer seeded 0x500) = .next t ∧ t.err = true :=
  ⟨rfl, _, rfl, rfl⟩

theorem witness_StatusWordLayoutAndClearing : inEnc.Inv ∧ inEnc.rst = false ∧ ∃ t, step inEnc = .next t :=
  ⟨by decide, rfl, _, rfl⟩

theorem witness_StatusWordLayoutAndClearing_halt :
    ({ State.reset with ph := .halt, err := true, cause := 2 } : State).Inv
      ∧ ∃ t, step { State.reset with ph := .halt, err := true, cause := 2 } = .next t :=
  ⟨by decide, _, rfl⟩

/-- Hypotheses of the statements that say what any step does. -/
theorem witness_OnlySeedLoadAndStepWriteState : inEnc.rst = false ∧ ∃ t, step inEnc = .next t := ⟨rfl, _, rfl⟩

theorem witness_SeedAndOutAreNeverRead : ∃ t, step inEnc = .next t := ⟨_, rfl⟩

theorem witness_CiphertextIsAppendOnly : ∃ t, step inEnc = .next t ∧ t.ct ≠ inEnc.ct := ⟨_, rfl, by decide⟩

theorem witness_DrawsConsumeOneByteInOrder : ∃ t, step { inEnc with ph := .cntw } = .next t ∧ t.rp = 6 := ⟨_, rfl, rfl⟩

theorem witness_CommandsAcceptedOnlyInIdle : ∃ t, step programP3 = .next t ∧ t.cmd ≠ programP3.cmd := ⟨_, rfl, by decide⟩

theorem witness_SafeSequencesNeverFault :
    safeSequence ((offer State.reset 0x001).seeded || decide ((offer State.reset 0x001).ph = .seedw)) [0x001, 0x100, 0x341] = true
      ∧ (∃ t, runSteps 1 (offer State.reset 0x001) = .next t) ∧ [0x400, 0x000, 0x0FF].all seedingWord = true :=
  ⟨by decide, ⟨_, rfl⟩, by decide⟩

theorem witness_StepKeepsInv : programP3.Inv ∧ inEnc.Inv ∧ ∃ t, step inEnc = .next t := ⟨by decide, by decide, _, rfl⟩

theorem witness_EnvironmentKeepsInv :
    programP3.Inv ∧ envAllowed (.presentPlaintext [1]) programP3 = true ∧ envAllowed .requestReset inEnc = true := by
  decide

theorem witness_StepKeepsSeedOrbit : seeded.OnSeedOrbit ∧ ∃ t, step (offer seeded 0x100) = .next t :=
  ⟨fun _ _ hv hw => ⟨0, Option.some.inj (hv.symm.trans hw)⟩, _, rfl⟩

theorem witness_InvariantStatesNeverStop : inEnc.Inv ∧ State.reset.Inv := by decide

theorem witness_ProgressUnlessWaiting :
    State.reset.Inv ∧ State.reset.waiting = true ∧ inEnc.Inv ∧ inEnc.waiting = false := by
  decide

theorem witness_ReachableStatesAreGood : Reachable (envAct (.offerCommand 0x400) State.reset) :=
  .env _ _ .reset rfl

theorem witness_InitUnsetRedrawsUntilNonzero :
    ({ programP3 with cmd := [0x000] } : State).Offered (.init 0) ∧ programP3.runm = false ∧ (0x4C : Byte) ≠ 0
      ∧ (List.replicate 1 0 ++ [0x4C]) <+: programP3.tapeAhead := by
  decide

theorem witness_InitUnsetRedrawsUntilNonzero_zeros :
    ({ State.reset with ph := .seedw, rnd := [0, 0] } : State).rst = false
      ∧ (∀ b ∈ ({ State.reset with ph := .seedw, rnd := [0, 0] } : State).tapeAhead, b = 0)
      ∧ 2 ≤ ({ State.reset with ph := .seedw, rnd := [0, 0] } : State).tapeAhead.length := by
  decide

theorem witness_AdvTakesDrawnNumberOfSteps :
    ({ offer seeded 0x200 with rnd := [255] } : State).Offered .adv ∧ seeded.runm = false ∧ seeded.seeded = true
      ∧ seeded.lfsr = some 0x16A ∧ ({ offer seeded 0x200 with rnd := [255] } : State).offeredRandom = some 255
      ∧ (offer State.reset 0x200).Offered .adv ∧ State.reset.seeded = false ∧ (1 : Byte) ≠ 0 := by
  decide

theorem witness_RunEncryptsWholePlaintext :
    programP3.Offered .run ∧ programP3.ctReady = true ∧ programP3.TapeForRun 1 0x4C 0x02 [0x00, 0x05, 0xFF] := by
  decide

/-- An empty plaintext meets them too (program P5). -/
theorem witness_RunEncryptsWholePlaintext_empty :
    ({ State.reset with cmd := [0x400], rnd := [0, 0, 7, 4] } : State).Offered .run
      ∧ ({ State.reset with cmd := [0x400], rnd := [0, 0, 7, 4] } : State).TapeForRun 2 7 4 [] := by
  decide

theorem witness_CiphertextByteFormula : ([0x48, 0x69, 0x21] : List Byte)[2]? = some 0x21 := by decide

/-- A whole RUN over the empty plaintext: accepted, seeded, burnt zero steps, ended. -/
theorem witness_RunPushesOneBytePerPlaintextByte :
    ({ State.reset with cmd := [0x400], rnd := [1, 0] } : State).Offered .run
      ∧ (∃ t, runSteps 4 { State.reset with cmd := [0x400], rnd := [1, 0] } = .next t ∧ t.runm = false)
      ∧ ∀ m u, 0 < m → m < 4 → runSteps m { State.reset with cmd := [0x400], rnd := [1, 0] } = .next u → u.runm = true := by
  refine ⟨by decide, ⟨_, rfl, rfl⟩, fun m u h0 h4 h => ?_⟩
  have hm : m = 1 ∨ m = 2 ∨ m = 3 := by omega
  rcases hm with rfl | rfl | rfl <;> cases h <;> rfl

/-- A RUN over one byte, whose tape lets it complete. -/
theorem witness_SequencerFollowsCommandRules :
    ({ State.reset with cmd := [0x400], pt := [0x48], rnd := [0x4C, 2, 0] } : State).Inv
      ∧ ({ State.reset with cmd := [0x400], pt := [0x48], rnd := [0x4C, 2, 0] } : State).Offered .run
      ∧ ({ State.reset with cmd := [0x400], pt := [0x48], rnd := [0x4C, 2, 0] } : State).ctReady = true
      ∧ ∃ t, commandRule .run { State.reset with cmd := [0x400], pt := [0x48], rnd := [0x4C, 2, 0] } = some t
          ∧ t.ct = [0x7B] :=
  ⟨by decide, by decide, rfl, Option.map_eq_some_iff.mp (show (commandRule .run _).map State.ct = some [0x7B] by decide)⟩

/-- The hypotheses of `SequencerFollowsCommandRules`, for a command and a state. -/
abbrev RuleApplies (i : Instr) (s : State) : Prop :=
  s.Inv ∧ s.Offered i ∧ s.ctReady = true ∧ (commandRule i s).isSome = true

/-- The other commands: INIT with an operand and unset, STEP, ADV and ENCB on a seeded core, and STEP on an unseeded one, which
faults. -/
theorem witness_SequencerFollowsCommandRules_commands :
    RuleApplies (.init 0xB5) (offer State.reset 0x0B5)
      ∧ RuleApplies (.init 0) { offer State.reset 0x000 with rnd := [0, 7] }
      ∧ RuleApplies .step (offer seeded 0x100)
      ∧ RuleApplies .adv { offer seeded 0x200 with rnd := [3] }
      ∧ RuleApplies (.encb 0x41) (offer seeded 0x341)
      ∧ RuleApplies .step (offer State.reset 0x100) :=
  ⟨by decide, by decide, by decide, by decide, by decide, by decide⟩

theorem witness_RunEqualsSingleCommands :
    programP3.rst = false ∧ programP3.ph = .idle ∧ programP3.runm = false ∧ programP3.ctReady = true
      ∧ programP3.TapeForRun 1 0x4C 0x02 [0x00, 0x05, 0xFF] := by
  decide

/-- The commands of program P7. -/
theorem test_runAsCommands : runAsCommands [0x48, 0x69] = [0x000, 0x200, 0x348, 0x200, 0x369, 0x200] := rfl

/-- P3 and P6: the seed bytes differ, the seeds do not, and the last counts differ. -/
theorem witness_EncryptionIsAnInvolution :
    programP3.Offered .run ∧ programP6.Offered .run ∧ programP3.TapeForRun 1 0x4C 0x02 [0x00, 0x05, 0xFF]
      ∧ programP6.TapeForRun 0 0x98 0x02 [0x00, 0x05, 0x07] ∧ seedBits 0x4C = seedBits 0x98
      ∧ ([0x00, 0x05, 0xFF] : List Byte).dropLast = ([0x00, 0x05, 0x07] : List Byte).dropLast := by
  decide

/-- The ciphertext of P3, which is P6's plaintext. -/
theorem test_ciphertextOf : ciphertextOf 0x130 0x02 [0x00, 0x05, 0xFF] [0x48, 0x69, 0x21] = [0x7B, 0x5A, 0xB7] := by
  decide +kernel

/-- The state after six steps of P3: seeded and burnt, about to encrypt the first byte. -/
theorem witness_RunsDependOnTapeAndPlaintextOnly :
    programP3.Offered .run ∧ ({ programP3 with seeded := true, lfsr := some 1, out := 9, ct := [1], idx := 7 } : State).Offered .run
      ∧ programP3.cmd = [encode .run] ∧ ∃ t, runSteps 7 programP3 = .next t ∧ t.ph = .enc :=
  ⟨by decide, by decide, by decide, _, rfl, rfl⟩

/-- A transfer on the command port, a wait on it, a push, a draw. -/
theorem witness_PortHandshakes :
    programP3.Inv ∧ programP3.rst = false ∧ (programP3.cmdValid && programP3.cmdReady) = true
      ∧ inEnc.Inv ∧ (inEnc.ctValid && inEnc.ctReady) = true ∧ inEnc.lfsr = some 0x116 ∧ inEnc.ptData = some 0x21
      ∧ ({ inEnc with ph := .cntw } : State).Inv ∧ (({ inEnc with ph := .cntw } : State).rndValid && ({ inEnc with ph := .cntw } : State).rndReady) = true
      ∧ (∃ t, step programP3 = .next t) ∧ (∃ t, step { inEnc with ph := .cntw } = .next t) ∧ ∃ t, step inEnc = .next t :=
  ⟨by decide, rfl, by decide, by decide, by decide, rfl, by decide, by decide, by decide, ⟨_, rfl⟩, ⟨_, rfl⟩, _, rfl⟩

/-- R55, R117: `cmd_ready` is 0 while an ENCB waits for the consumer, and 1 for any other word and for an ENCB that faults. -/
theorem test_cmdReady :
    (offer seeded 0x341).cmdReady = true ∧ ({ offer seeded 0x341 with ctReady := false } : State).cmdReady = false
      ∧ ({ offer seeded 0x100 with ctReady := false } : State).cmdReady = true
      ∧ ({ offer State.reset 0x341 with ctReady := false } : State).cmdReady = true ∧ inEnc.cmdReady = false := by
  decide

end Sys2Proof.Tests
end

section
/-!
SUPPORT. Which transition a step of an idle core is.
-/

namespace Sys2Proof.Machine

variable {s : State}

/-- With no word offered an idle core waits (R117, R120). -/
theorem step_idle_of_cmd_nil (hr : s.rst = false) (hp : s.ph = .idle) (hc : s.cmd = []) : step s = .next s := by
  simp [step, hr, hp, State.offeredCommand, hc, idleWait]

/-- The step of an idle core at which a command is offered is that command's acceptance (R31, R96). -/
theorem step_of_offered {i : Instr} (h : s.Offered i) : step s = exec i s := by
  obtain ⟨hr, hp, hd⟩ := h
  obtain ⟨w, hw, hd⟩ := Option.map_eq_some_iff.mp hd
  simp [step, hr, hp, hw, hd]

end Sys2Proof.Machine
end

section
/-!
SUPPORT. Two runs side by side: when the outcomes of two transitions keep a relation, one rule for each shared operation.
-/

namespace Sys2Proof.Machine

variable {R : State → State → Prop} {s1 s2 : State}

/-- When the first outcome is a next state, so is the second, and the two states are related. -/
def Lockstep (R : State → State → Prop) (o1 o2 : Result) : Prop :=
  ∀ t1, o1 = .next t1 → ∃ t2, o2 = .next t2 ∧ R t1 t2

theorem lockstep_next (h : R s1 s2) : Lockstep R (.next s1) (.next s2) := by
  rintro _ ⟨⟩
  exact ⟨s2, rfl, h⟩

theorem lockstep_readLfsr {go1 go2 : Lfsr → Result} (hs : s1.lfsr = s2.lfsr)
    (hgo : ∀ v, Lockstep R (go1 v) (go2 v)) : Lockstep R (s1.readLfsr go1) (s2.readLfsr go2) := by
  intro t1 h
  obtain ⟨v, hv, h⟩ := readLfsr_next h
  rw [readLfsr_of_some (hs.symm.trans hv)]
  exact hgo v t1 h

theorem lockstep_whenConsumerReady {u1 u2 : State} (hc : s1.ctReady = s2.ctReady) (hwait : R s1 s2) (hpush : R u1 u2) :
    Lockstep R (s1.whenConsumerReady u1) (s2.whenConsumerReady u2) := by
  unfold State.whenConsumerReady
  rw [← hc]
  split
  · exact lockstep_next hpush
  · exact lockstep_next hwait

/-- The offered byte is the first of the tape ahead (R35). -/
theorem offeredRandom_eq_head? (s : State) : s.offeredRandom = s.tapeAhead.head? := by
  simp [State.offeredRandom, State.tapeAhead]

@[simp] theorem consumeRandom_tapeAhead (s : State) : s.consumeRandom.tapeAhead = s.tapeAhead.tail := by
  simp [State.tapeAhead]

theorem lockstep_whenRandomOffered {use1 use2 : Byte → State → State} (ht : s1.tapeAhead = s2.tapeAhead)
    (hwait : R s1 s2) (huse : ∀ r, R (use1 r s1.consumeRandom) (use2 r s2.consumeRandom)) :
    Lockstep R (s1.whenRandomOffered use1) (s2.whenRandomOffered use2) := by
  have ho : s1.offeredRandom = s2.offeredRandom := by simp only [offeredRandom_eq_head?, ht]
  cases hr : s1.offeredRandom with
  | none =>
    rw [whenRandomOffered_of_none hr, whenRandomOffered_of_none (ho.symm.trans hr)]
    exact lockstep_next hwait
  | some r =>
    rw [whenRandomOffered_of_some hr, whenRandomOffered_of_some (ho.symm.trans hr)]
    exact lockstep_next (huse r)

/-- A relation that every pair of steps keeps holds along two runs of the same length. -/
theorem lockstep_runSteps (hstep : ∀ u1 u2, R u1 u2 → Lockstep R (step u1) (step u2)) (n : Nat) (h : R s1 s2) :
    Lockstep R (runSteps n s1) (runSteps n s2) := by
  induction n generalizing s1 s2 with
  | zero => exact lockstep_next h
  | succ n ih =>
    intro t1 hrun
    obtain ⟨u1, hu1, hrun⟩ := runSteps_succ_next hrun
    obtain ⟨u2, hu2, hu⟩ := hstep s1 s2 h u1 hu1
    rw [runSteps_succ_of_next n hu2]
    exact ih hu t1 hrun

end Sys2Proof.Machine
end

section
/-!
SUPPORT. What two cores have in common once they have accepted a RUN over the same plaintext with the same tape ahead (R7,
R85), and that every transition keeps it.
-/

namespace Sys2Proof.Machine

/-- The two cores are at the same point of a RUN, or past it with nothing left to accept. They agree on what the sequencer
reads: on `S` and `SEED` from the seed load on, on `CNT` while it counts. What they have pushed since `CT` held `c1` and `c2`
is the same. They may differ in the registers and the tape before that point. -/
structure RunAgrees (c1 c2 : List Byte) (s1 s2 : State) : Prop where
  noReset₁ : s1.rst = false
  noReset₂ : s2.rst = false
  noCommand₁ : s1.cmd = []
  noCommand₂ : s2.cmd = []
  ph : s1.ph = s2.ph
  runm : s1.runm = s2.runm
  idx : s1.idx = s2.idx
  pt : s1.pt = s2.pt
  tapeAhead : s1.tapeAhead = s2.tapeAhead
  ctReady : s1.ctReady = s2.ctReady
  lfsr : s1.ph ≠ .seedw → s1.lfsr = s2.lfsr
  seed : s1.ph ≠ .seedw → s1.seed = s2.seed
  cnt : s1.ph = .steps → s1.cnt = s2.cnt
  pushed : ∃ c, s1.ct = c1 ++ c ∧ s2.ct = c2 ++ c

variable {c1 c2 : List Byte} {s1 s2 : State}

/-- A draw takes the same byte from both tapes. -/
theorem RunAgrees.consumeRandom (h : RunAgrees c1 c2 s1 s2) : RunAgrees c1 c2 s1.consumeRandom s2.consumeRandom :=
  { h with tapeAhead := by simp [h.tapeAhead] }

/-- Any phase but `STEPS` may be entered together once `S` and `SEED` agree. -/
theorem RunAgrees.enterPhase (h : RunAgrees c1 c2 s1 s2) {p : Phase} (hp : p ≠ .steps) (hs : s1.ph ≠ .seedw) :
    RunAgrees c1 c2 (s1.enterPhase p) (s2.enterPhase p) :=
  { h with
    ph := rfl
    lfsr := fun _ => h.lfsr hs
    seed := fun _ => h.seed hs
    cnt := fun hc => absurd hc hp }

theorem RunAgrees.lockstep_seedDraw (h : RunAgrees c1 c2 s1 s2) :
    Lockstep (RunAgrees c1 c2) (seedDraw s1) (seedDraw s2) := by
  refine lockstep_whenRandomOffered h.tapeAhead h fun r => ?_
  have hr := h.consumeRandom
  simp only [← h.runm]
  split
  · exact hr
  · exact { hr with
      ph := rfl
      lfsr := fun _ => rfl
      seed := fun _ => rfl
      cnt := fun hc => by cases hm : s1.runm <;> simp [hm] at hc }

theorem RunAgrees.lockstep_countDraw (h : RunAgrees c1 c2 s1 s2) (hp : s1.ph = .cntw) :
    Lockstep (RunAgrees c1 c2) (countDraw s1) (countDraw s2) := by
  have hs : s1.ph ≠ .seedw := by simp [hp]
  refine lockstep_whenRandomOffered h.tapeAhead h fun r => ?_
  exact { h.consumeRandom with
    ph := rfl
    lfsr := fun _ => h.lfsr hs
    seed := fun _ => h.seed hs
    cnt := fun _ => rfl }

theorem RunAgrees.lockstep_stepOrLeave (h : RunAgrees c1 c2 s1 s2) (hp : s1.ph = .steps) :
    Lockstep (RunAgrees c1 c2) (stepOrLeave s1) (stepOrLeave s2) := by
  have hs : s1.ph ≠ .seedw := by simp [hp]
  unfold stepOrLeave
  rw [← h.cnt hp, ← h.runm, ← h.idx, ← h.pt]
  split
  · refine lockstep_readLfsr (h.lfsr hs) fun v => lockstep_next ?_
    exact { h with lfsr := fun _ => rfl, cnt := fun _ => rfl }
  · split
    · exact lockstep_next (h.enterPhase nofun hs)
    · split
      · exact lockstep_next (h.enterPhase nofun hs)
      · exact lockstep_next { h.enterPhase (p := .idle) nofun hs with runm := rfl }

/-- Both cores encrypt the same plaintext byte with the same key. -/
theorem RunAgrees.lockstep_encryptByte (h : RunAgrees c1 c2 s1 s2) (hp : s1.ph = .enc) :
    Lockstep (RunAgrees c1 c2) (encryptByte s1) (encryptByte s2) := by
  have hs : s1.ph ≠ .seedw := by simp [hp]
  unfold encryptByte
  rw [show s2.ptRead s2.idx = s1.ptRead s1.idx by simp only [State.ptRead, h.pt, h.idx]]
  split
  · exact nofun
  · next p _ =>
    refine lockstep_readLfsr (h.lfsr hs) fun v => lockstep_whenConsumerReady h.ctReady h ?_
    obtain ⟨c, h1, h2⟩ := h.pushed
    exact { h.enterPhase (p := .cntw) nofun hs with
      idx := congrArg (· + 1) h.idx
      pushed := ⟨c ++ [encrypted p v], by simp [h1], by simp [h2]⟩ }

theorem RunAgrees.lockstep_step (h : RunAgrees c1 c2 s1 s2) :
    Lockstep (RunAgrees c1 c2) (step s1) (step s2) := by
  cases hp : s1.ph with
  | idle =>
    rw [step_idle_of_cmd_nil h.noReset₁ hp h.noCommand₁, step_idle_of_cmd_nil h.noReset₂ (h.ph.symm.trans hp) h.noCommand₂]
    exact lockstep_next h
  | seedw =>
    rw [step_seedw h.noReset₁ hp, step_seedw h.noReset₂ (h.ph.symm.trans hp)]
    exact h.lockstep_seedDraw
  | cntw =>
    rw [step_cntw h.noReset₁ hp, step_cntw h.noReset₂ (h.ph.symm.trans hp)]
    exact h.lockstep_countDraw hp
  | steps =>
    rw [step_steps h.noReset₁ hp, step_steps h.noReset₂ (h.ph.symm.trans hp)]
    exact h.lockstep_stepOrLeave hp
  | enc =>
    rw [step_enc h.noReset₁ hp, step_enc h.noReset₂ (h.ph.symm.trans hp)]
    exact h.lockstep_encryptByte hp
  | halt =>
    rw [step_halt h.noReset₁ hp, step_halt h.noReset₂ (h.ph.symm.trans hp)]
    exact lockstep_next h

/-- Accepting the RUN brings the two cores to the same point, whatever their registers hold. -/
theorem runAgrees_of_offered (h1 : s1.Offered .run) (h2 : s2.Offered .run) (hc1 : s1.cmd = [encode .run])
    (hc2 : s2.cmd = [encode .run]) (hpt : s1.pt = s2.pt) (htape : s1.tapeAhead = s2.tapeAhead)
    (hready : s1.ctReady = s2.ctReady) :
    Lockstep (RunAgrees s1.ct s2.ct) (step s1) (step s2) := by
  rw [step_of_offered h1, step_of_offered h2]
  obtain ⟨hr1, -, -⟩ := h1
  obtain ⟨hr2, -, -⟩ := h2
  exact lockstep_next
    { noReset₁ := hr1
      noReset₂ := hr2
      noCommand₁ := by simp [hc1]
      noCommand₂ := by simp [hc2]
      ph := rfl
      runm := rfl
      idx := rfl
      pt := hpt
      tapeAhead := htape
      ctReady := hready
      lfsr := fun hs => absurd rfl hs
      seed := fun hs => absurd rfl hs
      cnt := nofun
      pushed := ⟨[], by simp, by simp⟩ }

end Sys2Proof.Machine
end

section
/-!
PROOF. A RUN depends on the plaintext and the tape ahead only (R7, R24, R85).
-/

namespace Sys2Proof.Machine

/-- Settles O57: accepting the RUN makes the two cores agree, and from there the runs are in lockstep. -/
theorem runsDependOnTapeAndPlaintextOnly : Obligations.RunsDependOnTapeAndPlaintextOnly := by
  intro s1 s2 t1 n h1 h2 hc1 hc2 hpt htape hready hn hrun
  obtain ⟨n, rfl⟩ := Nat.exists_eq_add_of_lt hn
  rw [Nat.zero_add] at hrun ⊢
  obtain ⟨u1, hu1, hrun⟩ := runSteps_succ_next hrun
  obtain ⟨u2, hu2, hu⟩ := runAgrees_of_offered h1 h2 hc1 hc2 hpt htape hready u1 hu1
  obtain ⟨t2, ht2, ht⟩ := lockstep_runSteps (fun _ _ h => h.lockstep_step) n hu t1 hrun
  obtain ⟨c, hct1, hct2⟩ := ht.pushed
  exact ⟨t2, c, (runSteps_succ_of_next n hu2).trans ht2, hct1, hct2, ht.ph, ht.runm, ht.idx, ht.tapeAhead,
    fun hs => ⟨ht.lfsr hs, ht.seed hs⟩⟩

end Sys2Proof.Machine
end

section
/-!
SUPPORT. The bits of a seed (R60, R61) and of a stepped state (R65, R67).
-/

namespace Sys2Proof.Machine

@[simp] theorem bitAt_lfsrStep_zero (v : Lfsr) : bitAt (lfsrStep v) 0 = feedback v := by
  simp [bitAt, lfsrStep]

theorem bitAt_lfsrStep_succ (v : Lfsr) {k : Nat} (hk : k < 8) : bitAt (lfsrStep v) (k + 1) = bitAt v k := by
  have hk' : 9 - (9 - k) = k := by omega
  simp [bitAt, lfsrStep, hk, hk']

/-- A step to zero shifts in zeros from the bits 0 to 7, and then a feedback of zero leaves the tail zero too (R67). -/
theorem lfsrStep_ne_zero {v : Lfsr} (hv : v ≠ 0) : lfsrStep v ≠ 0 := by
  intro h
  have hlow : ∀ k, k < 8 → bitAt v k = false := fun k hk => by
    rw [← bitAt_lfsrStep_succ v hk, h]
    simp [bitAt]
  have hfeedback : feedback v = false := by
    rw [← bitAt_lfsrStep_zero, h]
    rfl
  have htail : bitAt v 8 = false := by simpa [feedback, taps, hlow] using hfeedback
  refine hv (BitVec.eq_of_getMsbD_eq fun k hk => ?_)
  obtain hk | rfl : k < 8 ∨ k = 8 := by omega
  · simpa [bitAt] using hlow k hk
  · simpa [bitAt] using htail

/-- Reading digits as a binary number, most significant first, puts digit `n - 1 - j` at bit `j`. -/
theorem testBit_foldl_digits (d : Nat → Bool) (n j : Nat) :
    ((List.range n).foldl (fun acc k => 2 * acc + (d k).toNat) 0).testBit j = (decide (j < n) && d (n - 1 - j)) := by
  induction n generalizing j with
  | zero => simp
  | succ n ih =>
    rw [List.range_succ, List.foldl_append, List.foldl_cons, List.foldl_nil]
    cases j with
    | zero => cases h : d n <;> simp [h, Nat.testBit_zero, Nat.add_mod]
    | succ j =>
      have hhalf : ∀ a, (2 * a + (d n).toNat) / 2 = a := fun a => by
        have := (d n).toNat_lt
        omega
      rw [Nat.testBit_succ, hhalf, ih, show n + 1 - 1 - (j + 1) = n - 1 - j by omega]
      simp

theorem bitAt_ofDigits (ds : List Bool) {k : Nat} (hk : k < 9) : bitAt (ofDigits ds) k = ds.getD k false := by
  have h := testBit_foldl_digits (fun j => ds.getD j false) 9 (8 - k)
  rw [show 9 - 1 - (8 - k) = k by omega] at h
  simp only [ofDigits, bitAt, BitVec.getMsbD, BitVec.getLsbD_ofNat]
  rw [show 9 - 1 - k = 8 - k by omega, h]
  simp [hk, show 8 - k < 9 by omega]

/-- The digits of a non-zero byte begin with the one that the leading zeros are dropped up to (R60). -/
theorem binaryDigits_eq_true_cons {i : Byte} (hi : i ≠ 0) : ∃ ds, binaryDigits i = true :: ds := by
  have hne : binaryDigits i ≠ [] := by
    intro h
    simp only [binaryDigits, List.dropWhile_eq_nil_iff, List.mem_map, List.mem_range] at h
    exact hi (BitVec.eq_of_getMsbD_eq fun k hk => by simpa using h _ ⟨k, hk, rfl⟩)
  have hhead : (binaryDigits i).head hne = true := by
    simpa [binaryDigits] using List.head_dropWhile_not (fun d => !d) hne
  exact ⟨_, hhead ▸ (List.cons_head_tail hne).symm⟩

theorem bitlen_le (i : Byte) : bitlen i ≤ 8 :=
  (List.dropWhile_sublist _).length_le.trans (by simp)

/-- The head of a seed is 1 (R61). -/
theorem bitAt_seedBits_head {i : Byte} (hi : i ≠ 0) : bitAt (seedBits i) 0 = true := by
  obtain ⟨ds, h⟩ := binaryDigits_eq_true_cons hi
  rw [seedBits, bitAt_ofDigits _ (by decide), h]
  simp

/-- The tail of a seed is 0: a byte has at most eight digits (R61). -/
theorem bitAt_seedBits_tail (i : Byte) : bitAt (seedBits i) 8 = false := by
  have h : (binaryDigits i).length ≤ 8 := bitlen_le i
  rw [seedBits, bitAt_ofDigits _ (by decide)]
  simp [List.getD_eq_getElem?_getD, List.getElem?_append_right h]

theorem seedBits_ne_zero {i : Byte} (hi : i ≠ 0) : seedBits i ≠ 0 := by
  intro h
  have hhead := bitAt_seedBits_head hi
  rw [h] at hhead
  cases hhead

end Sys2Proof.Machine
end

section
/-!
SUPPORT. Everything a step can do, one constructor for each transition of `42_sequencer.md` with its guards (R96 to R101).
-/

namespace Sys2Proof.Machine

/-- A step that answers a next state goes from `s` to it by one of these transitions. -/
inductive Transition (s : State) : State → Prop where
  | reset (hr : s.rst = true) : Transition s s.applyReset
  | wait (hw : s.waiting = true) : Transition s s
  | reservedFault (why : Reserved) (hr : s.rst = false) (hp : s.ph = .idle)
      (hd : s.offeredCommand.map decode = some (.reserved why)) :
      Transition s (s.consumeCommand.raiseFault .reservedCommand)
  | unseededFault (i : Instr) (ho : s.Offered i) (hi : i = .step ∨ i = .adv ∨ ∃ p, i = .encb p)
      (hs : s.seeded = false) : Transition s (s.consumeCommand.raiseFault .notSeeded)
  | initLoad (i : Byte) (hi : i ≠ 0) (ho : s.Offered (.init i)) :
      Transition s ((s.consumeCommand.seedLoad i).enterPhase .idle)
  | initUnset (ho : s.Offered (.init 0)) : Transition s (s.consumeCommand.enterPhase .seedw)
  | stepCommand (v : Lfsr) (ho : s.Offered .step) (hs : s.seeded = true) (hv : s.lfsr = some v) :
      Transition s ((s.consumeCommand.setLfsr (lfsrStep v)).enterPhase .idle)
  | advCommand (ho : s.Offered .adv) (hs : s.seeded = true) : Transition s (s.consumeCommand.enterPhase .cntw)
  | encbCommand (p : Byte) (v : Lfsr) (ho : s.Offered (.encb p)) (hs : s.seeded = true) (hv : s.lfsr = some v)
      (hc : s.ctReady = true) : Transition s ((s.consumeCommand.emit (encrypted p v)).enterPhase .idle)
  | runCommand (ho : s.Offered .run) : Transition s (s.consumeCommand.beginRun.enterPhase .seedw)
  | zeroSeedDraw (hr : s.rst = false) (hp : s.ph = .seedw) (hd : s.offeredRandom = some 0) :
      Transition s s.consumeRandom
  | seedDraw (r : Byte) (h0 : r ≠ 0) (hr : s.rst = false) (hp : s.ph = .seedw) (hd : s.offeredRandom = some r) :
      Transition s ((s.consumeRandom.seedLoad r).enterPhase (if s.runm then .cntw else .idle))
  | countDraw (r : Byte) (hr : s.rst = false) (hp : s.ph = .cntw) (hd : s.offeredRandom = some r) :
      Transition s ((s.consumeRandom.setCnt r).enterPhase .steps)
  | countedStep (v : Lfsr) (hr : s.rst = false) (hp : s.ph = .steps) (hn : s.cnt ≠ 0) (hv : s.lfsr = some v) :
      Transition s ((s.setLfsr (lfsrStep v)).setCnt (s.cnt - 1))
  | endAdv (hr : s.rst = false) (hp : s.ph = .steps) (hn : s.cnt = 0) (hm : s.runm = false) :
      Transition s (s.enterPhase .idle)
  | nextByte (hr : s.rst = false) (hp : s.ph = .steps) (hn : s.cnt = 0) (hm : s.runm = true)
      (hi : s.idx < s.pt.length) : Transition s (s.enterPhase .enc)
  | endRun (hr : s.rst = false) (hp : s.ph = .steps) (hn : s.cnt = 0) (hm : s.runm = true)
      (hi : s.pt.length ≤ s.idx) : Transition s (s.endRun.enterPhase .idle)
  | encryptByte (p : Byte) (v : Lfsr) (hr : s.rst = false) (hp : s.ph = .enc) (hb : s.ptRead s.idx = some p)
      (hv : s.lfsr = some v) (hc : s.ctReady = true) :
      Transition s ((s.emit (encrypted p v)).bumpIdx.enterPhase .cntw)

variable {s t : State}

theorem waiting_of_encb {p : Byte} (ho : s.Offered (.encb p)) (hs : s.seeded = true) (hc : s.ctReady = false) :
    s.waiting = true := by
  obtain ⟨hr, hp, hd⟩ := ho
  obtain ⟨w, hw, hd⟩ := Option.map_eq_some_iff.mp hd
  simp [State.waiting, State.cmdReady, hr, hp, hc, encbPushes_of_command hw hd, isEncb, hs]

theorem transition_of_exec {i : Instr} (ho : s.Offered i) (h : exec i s = .next t) : Transition s t := by
  cases i with
  | init i =>
    obtain ⟨rfl, rfl⟩ | ⟨hi, rfl⟩ := execInit_next h
    · exact .initUnset ho
    · exact .initLoad i hi ho
  | step =>
    obtain ⟨v, hs, hv, rfl⟩ | ⟨hs, rfl⟩ := execStep_next h
    · exact .stepCommand v ho hs hv
    · exact .unseededFault .step ho (.inl rfl) hs
  | adv =>
    obtain ⟨hs, rfl⟩ | ⟨hs, rfl⟩ := execAdv_next h
    · exact .advCommand ho hs
    · exact .unseededFault .adv ho (.inr (.inl rfl)) hs
  | encb p =>
    obtain ⟨v, hs, hv, hc, rfl⟩ | ⟨hs, hc, rfl⟩ | ⟨hs, rfl⟩ := execEncb_next h
    · exact .encbCommand p v ho hs hv hc
    · exact .wait (waiting_of_encb ho hs hc)
    · exact .unseededFault (.encb p) ho (.inr (.inr ⟨p, rfl⟩)) hs
  | run =>
    cases execRun_next h
    exact .runCommand ho

theorem transition_of_stepOrLeave (hr : s.rst = false) (hp : s.ph = .steps) (h : stepOrLeave s = .next t) :
    Transition s t := by
  obtain ⟨v, hn, hv, rfl⟩ | ⟨hn, hm, rfl⟩ | ⟨hn, hm, hi, rfl⟩ | ⟨hn, hm, hi, rfl⟩ := stepOrLeave_next h
  · exact .countedStep v hr hp hn hv
  · exact .endAdv hr hp hn hm
  · exact .nextByte hr hp hn hm hi
  · exact .endRun hr hp hn hm hi

theorem transition_of_step (h : step s = .next t) : Transition s t := by
  obtain ⟨hr, rfl⟩ | ⟨hr, ⟨hp, hc, rfl⟩ | ⟨w, why, hp, hc, hd, rfl⟩ | ⟨w, i, hp, hc, hd, h⟩ |
    ⟨hp, h⟩ | ⟨hp, h⟩ | ⟨hp, h⟩ | ⟨hp, h⟩ | ⟨hp, rfl⟩⟩ := step_cases h
  · exact .reset hr
  · exact .wait (by simp [State.waiting, hr, hp, State.cmdValid, hc])
  · exact .reservedFault why hr hp (by simp [hc, hd])
  · exact transition_of_exec ⟨hr, hp, by simp [hc, hd]⟩ h
  · obtain ⟨hd, rfl⟩ | ⟨r, h0, hd, rfl⟩ | ⟨hd, rfl⟩ := seedDraw_next h
    · exact .zeroSeedDraw hr hp hd
    · exact .seedDraw r h0 hr hp hd
    · exact .wait (by simp [State.waiting, hr, hp, State.rndValid, hd])
  · obtain ⟨r, hd, rfl⟩ | ⟨hd, rfl⟩ := countDraw_next h
    · exact .countDraw r hr hp hd
    · exact .wait (by simp [State.waiting, hr, hp, State.rndValid, hd])
  · exact transition_of_stepOrLeave hr hp h
  · obtain ⟨p, v, hb, hv, hc, rfl⟩ | ⟨hc, rfl⟩ := encryptByte_next h
    · exact .encryptByte p v hr hp hb hv hc
    · exact .wait (by simp [State.waiting, hr, hp, hc])
  · exact .wait (by simp [State.waiting, hr, hp])

end Sys2Proof.Machine
end

section
/-!
SUPPORT. Every transition keeps the invariant, one lemma for each of its parts.
-/

namespace Sys2Proof.Machine

variable {s t : State}

/-- A seed load writes `S` and `SEED` with `SEEDED`, a reset clears all three, and Step writes an `S` that holds a
value (R17). -/
theorem Transition.seededAgrees (h : Transition s t) (hi : s.SeededAgrees) : t.SeededAgrees := by
  obtain ⟨hlfsr, hseed⟩ := hi
  cases h with
  | reset | initLoad | seedDraw => exact ⟨rfl, rfl⟩
  | stepCommand v _ _ hv | countedStep v _ _ _ hv => exact ⟨hlfsr.trans (by simp [hv]), hseed⟩
  | _ => exact ⟨hlfsr, hseed⟩

/-- A seed load writes a seed (R61), and Step takes no other state to the lock-up state (R67). -/
theorem Transition.seedShaped (h : Transition s t) (hi : s.SeedShaped) : t.SeedShaped := by
  obtain ⟨hseed, hlfsr⟩ := hi
  cases h with
  | reset => exact ⟨rfl, nofun⟩
  | initLoad i h0 | seedDraw i h0 =>
    exact ⟨by simp [bitAt_seedBits_head h0, bitAt_seedBits_tail], by simpa using seedBits_ne_zero h0⟩
  | stepCommand v _ _ hv | countedStep v _ _ _ hv =>
    have hv0 : v ≠ 0 := by simpa [hv] using hlfsr
    exact ⟨hseed, by simpa using lfsrStep_ne_zero hv0⟩
  | _ => exact ⟨hseed, hlfsr⟩

theorem State.FaultAgrees.enterPhase (h : s.FaultAgrees) {p : Phase} (hs : s.ph ≠ .halt) (hp : p ≠ .halt) :
    (s.enterPhase p).FaultAgrees := by
  obtain ⟨herr, hcause⟩ := h
  exact ⟨by simp [herr, hs, hp], hcause⟩

theorem raiseFault_faultAgrees (s : State) (c : Cause) : (s.raiseFault c).FaultAgrees := by
  cases c <;> simp [State.FaultAgrees, causeCode]

/-- Only a fault enters `HALT`, and no other transition leaves it but a reset (R112, R115). -/
theorem Transition.faultAgrees (h : Transition s t) (hi : s.FaultAgrees) : t.FaultAgrees := by
  cases h with
  | reset => simp [State.FaultAgrees]
  | reservedFault | unseededFault => exact raiseFault_faultAgrees _ _
  | initLoad _ _ ho | initUnset ho | stepCommand _ ho | advCommand ho | encbCommand _ _ ho | runCommand ho =>
    obtain ⟨-, hp, -⟩ := ho
    exact hi.enterPhase (by simp [hp]) nofun
  | seedDraw _ _ _ hp => exact hi.enterPhase (by simp [hp]) (by split <;> nofun)
  | countDraw _ _ hp | endAdv _ hp | nextByte _ hp | endRun _ hp | encryptByte _ _ _ hp =>
    exact hi.enterPhase (by simp [hp]) nofun
  | _ => exact hi

/-- A draw takes a byte that the source has offered (R35). -/
theorem Transition.tapeAgrees (h : Transition s t) (hi : s.TapeAgrees) : t.TapeAgrees := by
  cases h with
  | zeroSeedDraw _ _ hd | seedDraw _ _ _ _ hd | countDraw _ _ _ hd => exact offeredRandom_lt hd
  | _ => exact hi

/-- In `IDLE` no RUN is in progress and `CNT` is zero. -/
theorem State.PhaseAgrees.of_idle (h : s.PhaseAgrees) (hp : s.ph = .idle) : s.runm = false ∧ s.cnt = 0 := by
  obtain ⟨-, -, hrun, hcnt⟩ := h
  simpa [State.busy, phaseBusy, hp] using And.intro hrun hcnt

theorem State.PhaseAgrees.of_offered {i : Instr} (h : s.PhaseAgrees) (ho : s.Offered i) :
    s.runm = false ∧ s.cnt = 0 := by
  obtain ⟨-, hp, -⟩ := ho
  exact h.of_idle hp

theorem State.PhaseAgrees.cnt_eq_zero (h : s.PhaseAgrees) (hp : s.ph ≠ .steps) : s.cnt = 0 := by
  obtain ⟨-, -, -, hcnt⟩ := h
  exact not_not.mp (mt hcnt hp)

theorem State.PhaseAgrees.idx_le (h : s.PhaseAgrees) (hm : s.runm = true) : s.idx ≤ s.pt.length := by
  obtain ⟨-, -, hrun, -⟩ := h
  exact (hrun hm).2

theorem State.PhaseAgrees.idx_lt (h : s.PhaseAgrees) (hp : s.ph = .enc) : s.idx < s.pt.length := by
  obtain ⟨-, henc, -, -⟩ := h
  exact (henc hp).2

theorem State.PhaseAgrees.seeded (h : s.PhaseAgrees) (hp : s.ph = .cntw ∨ s.ph = .steps ∨ s.ph = .enc) :
    s.seeded = true := by
  obtain ⟨hseeded, -, -, -⟩ := h
  exact hseeded hp

/-- Outside a RUN, and with nothing counted, the phases `IDLE`, `HALT` and `SEEDW` presuppose nothing. -/
theorem phaseAgrees_of_quiet (hquiet : s.runm = false ∧ s.cnt = 0) (hp : s.ph = .idle ∨ s.ph = .halt ∨ s.ph = .seedw) :
    s.PhaseAgrees := by
  obtain ⟨hm, hn⟩ := hquiet
  obtain hp | hp | hp := hp <;> simp [State.PhaseAgrees, hm, hn, hp]

/-- Each transition leaves what the phase it enters presupposes (R95 to R101). -/
theorem Transition.phaseAgrees (h : Transition s t) (hi : s.PhaseAgrees) : t.PhaseAgrees := by
  cases h with
  | reset => exact phaseAgrees_of_quiet ⟨rfl, rfl⟩ (.inl rfl)
  | wait | zeroSeedDraw => exact hi
  | reservedFault _ _ hp => exact phaseAgrees_of_quiet (hi.of_idle hp) (.inr (.inl rfl))
  | unseededFault _ ho => exact phaseAgrees_of_quiet (hi.of_offered ho) (.inr (.inl rfl))
  | initLoad _ _ ho | stepCommand _ ho | encbCommand _ _ ho => exact phaseAgrees_of_quiet (hi.of_offered ho) (.inl rfl)
  | initUnset ho => exact phaseAgrees_of_quiet (hi.of_offered ho) (.inr (.inr rfl))
  | advCommand ho hs =>
    obtain ⟨hm, hn⟩ := hi.of_offered ho
    simp [State.PhaseAgrees, hs, hm, hn]
  | runCommand ho =>
    obtain ⟨-, hn⟩ := hi.of_offered ho
    simp [State.PhaseAgrees, phaseBusy, hn]
  | seedDraw _ _ _ hp =>
    have hn := hi.cnt_eq_zero (by simp [hp])
    cases hm : s.runm with
    | false => exact phaseAgrees_of_quiet ⟨hm, hn⟩ (.inl rfl)
    | true => simp [State.PhaseAgrees, phaseBusy, hn, hi.idx_le hm]
  | countDraw _ _ hp =>
    exact ⟨fun _ => hi.seeded (.inl hp), nofun, fun hm => ⟨rfl, hi.idx_le hm⟩, fun _ => rfl⟩
  | countedStep _ _ hp =>
    obtain ⟨hseeded, henc, hrun, -⟩ := hi
    exact ⟨hseeded, henc, hrun, fun _ => hp⟩
  | endAdv _ _ hn hm => exact phaseAgrees_of_quiet ⟨hm, hn⟩ (.inl rfl)
  | nextByte _ hp hn hm hlt =>
    exact ⟨fun _ => hi.seeded (.inr (.inl hp)), fun _ => ⟨hm, hlt⟩, fun _ => ⟨rfl, hlt.le⟩, fun hc => absurd hn hc⟩
  | endRun _ _ hn => exact phaseAgrees_of_quiet ⟨rfl, hn⟩ (.inl rfl)
  | encryptByte _ _ _ hp =>
    have hn := hi.cnt_eq_zero (by simp [hp])
    exact ⟨fun _ => hi.seeded (.inr (.inr hp)), nofun, fun _ => ⟨rfl, hi.idx_lt hp⟩, fun hc => absurd hn hc⟩

theorem step_keeps_inv (hi : s.Inv) (h : step s = .next t) : t.Inv := by
  obtain ⟨hseeded, hseed, hfault, hphase, htape⟩ := hi
  have h := transition_of_step h
  exact ⟨h.seededAgrees hseeded, h.seedShaped hseed, h.faultAgrees hfault, h.phaseAgrees hphase, h.tapeAgrees htape⟩

end Sys2Proof.Machine
end

section
/-!
PROOF. The invariant holds after reset and every step keeps it (R13 to R18, R22, R50, R61, R67, R128).
-/

namespace Sys2Proof.Machine

/-- Settles O42: each part of the invariant is a finite check on the reset values. -/
theorem resetMeetsInv : Obligations.ResetMeetsInv := by
  unfold Obligations.ResetMeetsInv
  decide

/-- Settles O43: each part of the invariant is kept by every transition. -/
theorem stepKeepsInv : Obligations.StepKeepsInv :=
  fun _ _ hi h => step_keeps_inv hi h

/-- Settles O17: R22's table, and with no word offered an idle core is ready (R125). -/
theorem resetRegisterValues : Obligations.ResetRegisterValues := by
  unfold Obligations.ResetRegisterValues
  decide

end Sys2Proof.Machine
end

section
/-!
SUPPORT. Every step keeps `S` on the orbit of the stored seed (R19).
-/

namespace Sys2Proof.Machine

variable {s t : State}

/-- A state just loaded is on the orbit of its seed, after no step. -/
theorem onSeedOrbit_of_load {v : Lfsr} (hs : s.lfsr = some v) (hseed : s.seed = some v) : s.OnSeedOrbit :=
  fun _ _ hv hw => ⟨0, Option.some.inj (by rw [← hv, hs, stepN_zero, ← hw, hseed])⟩

/-- A step of `S` is one step more along the orbit. -/
theorem State.OnSeedOrbit.step {v : Lfsr} (hi : s.OnSeedOrbit) (hv : s.lfsr = some v)
    (ht : t.lfsr = some (lfsrStep v)) (hseed : t.seed = s.seed) : t.OnSeedOrbit := by
  intro v' w hv' hw
  obtain ⟨n, hn⟩ := hi v w hv (hseed ▸ hw)
  exact ⟨n + 1, by rw [stepN_succ, ← hn, ← Option.some.inj (ht.symm.trans hv')]⟩

theorem step_keeps_onSeedOrbit (hi : s.OnSeedOrbit) (h : step s = .next t) : t.OnSeedOrbit := by
  cases transition_of_step h with
  | reset => exact nofun
  | initLoad | seedDraw => exact onSeedOrbit_of_load rfl rfl
  | stepCommand _ _ _ hv | countedStep _ _ _ _ hv => exact hi.step hv rfl rfl
  | _ => exact hi

end Sys2Proof.Machine
end

section
/-!
PROOF. Who writes `S`, `SEED` and `CT` (R11, R12, R19, R34, R37).
-/

namespace Sys2Proof.Machine

/-- Settles O36: of the transitions, two load a seed and two step `S`. -/
theorem onlySeedLoadAndStepWriteState : Obligations.OnlySeedLoadAndStepWriteState := by
  intro s t hr h
  cases transition_of_step h with
  | reset hrst => simp [hr] at hrst
  | initLoad i h0 ho => exact .inr (.inl ⟨i, h0, rfl, rfl, rfl, .inl ho⟩)
  | seedDraw i h0 _ hp hd => exact .inr (.inl ⟨i, h0, rfl, rfl, rfl, .inr ⟨hp, hd⟩⟩)
  | stepCommand v ho _ hv => exact .inr (.inr ⟨v, hv, rfl, rfl, .inl ho⟩)
  | countedStep v _ hp hn hv => exact .inr (.inr ⟨v, hv, rfl, rfl, .inr ⟨hp, hn⟩⟩)
  | _ => exact .inl ⟨rfl, rfl⟩

/-- Settles O38: of the transitions, only an ENCB and `ENC` push. -/
theorem ciphertextIsAppendOnly : Obligations.CiphertextIsAppendOnly := by
  intro s t h
  cases transition_of_step h with
  | reset hr => exact .inl ⟨rfl, fun hrst => absurd hr (by simp [hrst])⟩
  | encbCommand p v ho _ hv hc => exact .inr ⟨p, v, hv, hc, rfl, rfl, .inl ho⟩
  | encryptByte p v _ hp hb hv hc => exact .inr ⟨p, v, hv, hc, rfl, rfl, .inr ⟨hp, hb⟩⟩
  | _ => exact .inl ⟨rfl, fun _ => rfl⟩

/-- Settles O45: a seed load starts an orbit and Step follows it. -/
theorem stepKeepsSeedOrbit : Obligations.StepKeepsSeedOrbit :=
  fun _ _ hi h => step_keeps_onSeedOrbit hi h

end Sys2Proof.Machine
end

section
/-!
PROOF. No transition reads `SEED` or the old `OUT` (R11, R12, R22): two cores that differ in nothing else stay so.
-/

namespace Sys2Proof.Machine

/-- The two states differ in `SEED` and `OUT` at most. -/
def SameButSeedOut (s1 s2 : State) : Prop := ∃ y z, s2 = { s1 with seed := y, out := z }

variable {s1 s2 : State}

theorem lockstep_requireSeeded {R : State → State → Prop} {go1 go2 : Result} (hs : s1.seeded = s2.seeded)
    (hfault : R (s1.consumeCommand.raiseFault .notSeeded) (s2.consumeCommand.raiseFault .notSeeded))
    (hgo : Lockstep R go1 go2) : Lockstep R (s1.requireSeeded go1) (s2.requireSeeded go2) := by
  unfold State.requireSeeded
  rw [← hs]
  split
  · exact hgo
  · exact lockstep_next hfault

theorem SameButSeedOut.lockstep_exec (h : SameButSeedOut s1 s2) (i : Instr) :
    Lockstep SameButSeedOut (exec i s1) (exec i s2) := by
  obtain ⟨y, z, rfl⟩ := h
  cases i with
  | init i =>
    simp only [exec, execInit]
    split
    · exact lockstep_next ⟨y, z, rfl⟩
    · exact lockstep_next ⟨_, z, rfl⟩
  | step =>
    exact lockstep_requireSeeded rfl ⟨y, z, rfl⟩ <| lockstep_readLfsr rfl fun _ => lockstep_next ⟨y, z, rfl⟩
  | adv => exact lockstep_requireSeeded rfl ⟨y, z, rfl⟩ <| lockstep_next ⟨y, z, rfl⟩
  | encb p =>
    exact lockstep_requireSeeded rfl ⟨y, z, rfl⟩ <| lockstep_readLfsr rfl fun _ =>
      lockstep_whenConsumerReady rfl ⟨y, z, rfl⟩ ⟨y, _, rfl⟩
  | run => exact lockstep_next ⟨y, z, rfl⟩

theorem SameButSeedOut.lockstep_seedDraw (h : SameButSeedOut s1 s2) :
    Lockstep SameButSeedOut (seedDraw s1) (seedDraw s2) := by
  obtain ⟨y, z, rfl⟩ := h
  refine lockstep_whenRandomOffered rfl ⟨y, z, rfl⟩ fun r => ?_
  split
  · exact ⟨y, z, rfl⟩
  · exact ⟨_, z, rfl⟩

theorem SameButSeedOut.lockstep_countDraw (h : SameButSeedOut s1 s2) :
    Lockstep SameButSeedOut (countDraw s1) (countDraw s2) := by
  obtain ⟨y, z, rfl⟩ := h
  exact lockstep_whenRandomOffered rfl ⟨y, z, rfl⟩ fun _ => ⟨y, z, rfl⟩

theorem SameButSeedOut.lockstep_stepOrLeave (h : SameButSeedOut s1 s2) :
    Lockstep SameButSeedOut (stepOrLeave s1) (stepOrLeave s2) := by
  obtain ⟨y, z, rfl⟩ := h
  unfold stepOrLeave
  split
  · exact lockstep_readLfsr rfl fun _ => lockstep_next ⟨y, z, rfl⟩
  · split
    · exact lockstep_next ⟨y, z, rfl⟩
    · split <;> exact lockstep_next ⟨y, z, rfl⟩

theorem SameButSeedOut.lockstep_encryptByte (h : SameButSeedOut s1 s2) :
    Lockstep SameButSeedOut (encryptByte s1) (encryptByte s2) := by
  obtain ⟨y, z, rfl⟩ := h
  unfold encryptByte
  rw [show ({ s1 with seed := y, out := z } : State).ptRead s1.idx = s1.ptRead s1.idx from rfl]
  split
  · exact nofun
  · exact lockstep_readLfsr rfl fun _ => lockstep_whenConsumerReady rfl ⟨y, z, rfl⟩ ⟨y, _, rfl⟩

theorem SameButSeedOut.lockstep_step (h : SameButSeedOut s1 s2) :
    Lockstep SameButSeedOut (step s1) (step s2) := by
  have ⟨y, z, hs2⟩ := h
  have hrst : s2.rst = s1.rst := by rw [hs2]
  have hph : s2.ph = s1.ph := by rw [hs2]
  have hoffered : s2.offeredCommand = s1.offeredCommand := by rw [hs2]; rfl
  unfold step
  rw [hrst, hph, hoffered]
  split
  · exact lockstep_next ⟨_, _, by rw [hs2]; rfl⟩
  · split
    · split
      · exact lockstep_next h
      · split
        · exact lockstep_next ⟨y, z, by rw [hs2]; rfl⟩
        · exact h.lockstep_exec _
    · exact h.lockstep_seedDraw
    · exact h.lockstep_countDraw
    · exact h.lockstep_stepOrLeave
    · exact h.lockstep_encryptByte
    · exact lockstep_next h

/-- Settles O37: the second core starts as the first but for `SEED` and `OUT`, and one step keeps it so. -/
theorem seedAndOutAreNeverRead : Obligations.SeedAndOutAreNeverRead := by
  intro s t x o h
  obtain ⟨_, hu, y, z, rfl⟩ := SameButSeedOut.lockstep_step ⟨x, o, rfl⟩ t h
  exact ⟨y, z, hu⟩

end Sys2Proof.Machine
end

section
/-!
SUPPORT. A state that meets the invariant has a next state (R33, U13), and the environment keeps the invariant (R129).
-/

namespace Sys2Proof.Machine

variable {s : State}

theorem State.SeededAgrees.exists_lfsr (h : s.SeededAgrees) (hs : s.seeded = true) : ∃ v, s.lfsr = some v := by
  obtain ⟨hlfsr, -⟩ := h
  exact Option.isSome_iff_exists.mp (hlfsr.symm.trans hs)

theorem whenConsumerReady_exists_next (s u : State) : ∃ t, s.whenConsumerReady u = .next t := by
  unfold State.whenConsumerReady
  split <;> exact ⟨_, rfl⟩

theorem whenRandomOffered_exists_next (s : State) (use : Byte → State → State) :
    ∃ t, s.whenRandomOffered use = .next t := by
  unfold State.whenRandomOffered
  split <;> exact ⟨_, rfl⟩

theorem requireSeeded_exists_next {go : Result} (h : s.seeded = true → ∃ t, go = .next t) :
    ∃ t, s.requireSeeded go = .next t := by
  cases hs : s.seeded with
  | true => simpa [requireSeeded_of_seeded hs] using h hs
  | false => exact ⟨_, requireSeeded_of_not_seeded hs⟩

/-- Every command is accepted with a next state when `S` holds a value on a seeded core (R17). -/
theorem State.SeededAgrees.exec_exists_next (h : s.SeededAgrees) (i : Instr) : ∃ t, exec i s = .next t := by
  cases i with
  | init i =>
    simp only [exec, execInit]
    split <;> exact ⟨_, rfl⟩
  | step =>
    refine requireSeeded_exists_next fun hs => ?_
    obtain ⟨v, hv⟩ := h.exists_lfsr hs
    exact ⟨_, readLfsr_of_some hv⟩
  | adv => exact requireSeeded_exists_next fun _ => ⟨_, rfl⟩
  | encb p =>
    refine requireSeeded_exists_next fun hs => ?_
    obtain ⟨v, hv⟩ := h.exists_lfsr hs
    rw [readLfsr_of_some hv]
    exact whenConsumerReady_exists_next _ _
  | run => exact ⟨_, rfl⟩

/-- `STEPS` reads `S`, which the phase presupposes (R99). -/
theorem stepOrLeave_exists_next {v : Lfsr} (hv : s.lfsr = some v) : ∃ t, stepOrLeave s = .next t := by
  unfold stepOrLeave
  rw [readLfsr_of_some hv]
  split
  · exact ⟨_, rfl⟩
  · split
    · exact ⟨_, rfl⟩
    · split <;> exact ⟨_, rfl⟩

/-- `ENC` reads `S` and a plaintext byte, which the phase presupposes (R100). -/
theorem encryptByte_exists_next {v : Lfsr} (hv : s.lfsr = some v) (hi : s.idx < s.pt.length) :
    ∃ t, encryptByte s = .next t := by
  have hp : s.ptRead s.idx = some s.pt[s.idx] := List.getElem?_eq_getElem hi
  simp only [encryptByte, hp, readLfsr_of_some hv]
  exact whenConsumerReady_exists_next _ _

theorem step_exists_next_of_idle (h : s.SeededAgrees) (hr : s.rst = false) (hp : s.ph = .idle) :
    ∃ t, step s = .next t := by
  simp only [step, hr, hp, Bool.false_eq_true, if_false]
  split
  · exact ⟨_, rfl⟩
  · split
    · exact ⟨_, rfl⟩
    · exact h.exec_exists_next _

theorem step_exists_next (hi : s.Inv) : ∃ t, step s = .next t := by
  obtain ⟨hseeded, -, -, hphase, -⟩ := hi
  cases hr : s.rst with
  | true => exact ⟨_, step_reset hr⟩
  | false =>
    cases hp : s.ph with
    | idle => exact step_exists_next_of_idle hseeded hr hp
    | seedw =>
      rw [step_seedw hr hp]
      exact whenRandomOffered_exists_next _ _
    | cntw =>
      rw [step_cntw hr hp]
      exact whenRandomOffered_exists_next _ _
    | steps =>
      rw [step_steps hr hp]
      obtain ⟨v, hv⟩ := hseeded.exists_lfsr (hphase.seeded (.inr (.inl hp)))
      exact stepOrLeave_exists_next hv
    | enc =>
      rw [step_enc hr hp]
      obtain ⟨v, hv⟩ := hseeded.exists_lfsr (hphase.seeded (.inr (.inr hp)))
      exact encryptByte_exists_next hv (hphase.idx_lt hp)
    | halt => exact ⟨_, step_halt hr hp⟩

/-- No part of the invariant reads the command port, the consumer or the reset line; a tape only grows; and a plaintext is
presented outside a RUN only, where `IDX` is not in use (R129). -/
theorem envAct_keeps_inv {a : EnvAction} (hi : s.Inv) (ha : envAllowed a s = true) : (envAct a s).Inv := by
  obtain ⟨hseeded, hseed, hfault, hphase, htape⟩ := hi
  cases a with
  | offerCommand | setConsumerReady | requestReset => exact ⟨hseeded, hseed, hfault, hphase, htape⟩
  | offerRandom b => exact ⟨hseeded, hseed, hfault, hphase, htape.trans (by simp [envAct])⟩
  | presentPlaintext p =>
    have hm : s.runm = false := by simpa [envAllowed] using ha
    obtain ⟨hphaseSeeded, henc, -, hcnt⟩ := hphase
    refine ⟨hseeded, hseed, hfault, ⟨hphaseSeeded, fun hp => ?_, fun hrun => ?_, hcnt⟩, htape⟩
    · obtain ⟨hrun, -⟩ := henc hp
      exact absurd hrun (by simp [hm])
    · exact absurd hrun (by simp [envAct, hm])

theorem envAct_keeps_onSeedOrbit (a : EnvAction) (hi : s.OnSeedOrbit) : (envAct a s).OnSeedOrbit := by
  cases a <;> exact hi

end Sys2Proof.Machine
end

section
/-!
PROOF. What holds of every state a run can reach (R17, R19, R50, R67, R128).
-/

namespace Sys2Proof.Machine

theorem Reachable.inv_and_onSeedOrbit {s : State} (h : Reachable s) : s.Inv ∧ s.OnSeedOrbit := by
  induction h with
  | reset => exact ⟨resetMeetsInv, nofun⟩
  | step s t _ hstep ih =>
    obtain ⟨hinv, horbit⟩ := ih
    exact ⟨step_keeps_inv hinv hstep, step_keeps_onSeedOrbit horbit hstep⟩
  | env s a _ ha ih =>
    obtain ⟨hinv, horbit⟩ := ih
    exact ⟨envAct_keeps_inv hinv ha, envAct_keeps_onSeedOrbit a horbit⟩

/-- Settles O48: by induction over the run; that `S` is not zero is part of the invariant. -/
theorem reachableStatesAreGood : Obligations.ReachableStatesAreGood := by
  intro s h
  obtain ⟨hinv, horbit⟩ := h.inv_and_onSeedOrbit
  have ⟨_, ⟨_, hlfsr⟩, _⟩ := hinv
  exact ⟨hinv, horbit, hlfsr, step_exists_next hinv⟩

end Sys2Proof.Machine
end

section
/-!
PROOF. What a step does to the channels the core reads: commands, random bytes, plaintext (R31, R35, R41, R103).
-/

namespace Sys2Proof.Machine

variable {s : State}

/-- A decoded word at the port is the head of the offered words; what is left are the others (R31). -/
theorem exists_cmd_eq_cons_of_decoded {d : Decoded} (h : s.offeredCommand.map decode = some d) :
    ∃ w, s.offeredCommand = some w ∧ s.cmd = w :: s.consumeCommand.cmd := by
  obtain ⟨w, hw, -⟩ := Option.map_eq_some_iff.mp h
  exact ⟨w, hw, List.eq_cons_of_mem_head? hw⟩

/-- Settles O39: of the transitions, the two seed draws and the count draw advance `RP`, and each takes an offered byte. -/
theorem drawsConsumeOneByteInOrder : Obligations.DrawsConsumeOneByteInOrder := by
  intro s t h
  cases transition_of_step h with
  | zeroSeedDraw hr hp hd | seedDraw _ _ hr hp hd =>
    exact ⟨rfl, rfl, rfl, .inr ⟨rfl, hr, offeredRandom_lt hd, .inl hp⟩⟩
  | countDraw _ hr hp hd => exact ⟨rfl, rfl, rfl, .inr ⟨rfl, hr, offeredRandom_lt hd, .inr hp⟩⟩
  | _ => exact ⟨rfl, rfl, rfl, .inl rfl⟩

/-- Settles O40: the transitions that consume a word are the acceptances and the faults, each in `IDLE` with a word that
decodes. -/
theorem commandsAcceptedOnlyInIdle : Obligations.CommandsAcceptedOnlyInIdle := by
  intro s t h
  cases transition_of_step h with
  | reservedFault _ hr hp hd => exact .inr ⟨hr, hp, exists_cmd_eq_cons_of_decoded hd⟩
  | unseededFault _ ho | initLoad _ _ ho | initUnset ho | stepCommand _ ho | advCommand ho | encbCommand _ _ ho
  | runCommand ho =>
    obtain ⟨hr, hp, hd⟩ := ho
    exact .inr ⟨hr, hp, exists_cmd_eq_cons_of_decoded hd⟩
  | _ => exact .inl rfl

/-- Settles O19: the offered word decodes to the command, so the step is its acceptance. -/
theorem stepRunsOfferedCommand : Obligations.StepRunsOfferedCommand :=
  fun _ _ _ hr hp hw hd => step_of_offered ⟨hr, hp, by rw [hw, Option.map_some, hd]⟩

end Sys2Proof.Machine
end

section
/-!
PROOF. Where the model stops, and that neither a step nor the environment brings a state of the invariant there (R17, R33,
R129, U5, U7, U13).
-/

namespace Sys2Proof.Machine

variable {s : State}

theorem stepOrLeave_of_lfsr_none (hn : s.cnt ≠ 0) (hv : s.lfsr = none) : stepOrLeave s = .fault .lfsrAbsent :=
  (if_pos hn).trans (readLfsr_of_none hv)

theorem encryptByte_of_lfsr_none (hi : s.idx < s.pt.length) (hv : s.lfsr = none) :
    encryptByte s = .fault .lfsrAbsent := by
  have hp : s.ptRead s.idx = some s.pt[s.idx] := List.getElem?_eq_getElem hi
  simp only [encryptByte, hp, readLfsr_of_none hv]

/-- `ENC` reads `PT` before `S`, so the refusal does not depend on `S` (R100, U7). -/
theorem encryptByte_of_length_le (hi : s.pt.length ≤ s.idx) : encryptByte s = .refused .ptOutOfRange := by
  have hp : s.ptRead s.idx = none := List.getElem?_eq_none hi
  simp only [encryptByte, hp]

/-- Settles O32: each stop is the answer of the one read that finds no value. -/
theorem modelStops : Obligations.ModelStops := by
  refine ⟨fun s hs hv => ?_, fun p s hs hv => ?_, fun s hr hp hn hv => ?_, fun s hr hp hi hv => ?_,
    fun s hr hp hi => ?_⟩
  · exact (requireSeeded_of_seeded hs).trans (readLfsr_of_none hv)
  · exact (requireSeeded_of_seeded hs).trans (readLfsr_of_none hv)
  · exact (step_steps hr hp).trans (stepOrLeave_of_lfsr_none hn hv)
  · exact (step_enc hr hp).trans (encryptByte_of_lfsr_none hi hv)
  · exact (step_enc hr hp).trans (encryptByte_of_length_le hi)

/-- Settles O46: the invariant gives each phase the value of `S` and the plaintext byte that its transition reads. -/
theorem invariantStatesNeverStop : Obligations.InvariantStatesNeverStop :=
  fun _ hi => step_exists_next hi

/-- Settles O44: each action leaves what the invariant reads as it is, or only lengthens the tape, or comes outside a RUN. -/
theorem environmentKeepsInv : Obligations.EnvironmentKeepsInv :=
  fun _ _ hi ha => envAct_keeps_inv hi ha

end Sys2Proof.Machine
end

section
/-!
SUPPORT. A command word is its two fields (R45), and the decoder and the encoder in terms of them (R46, R48, R49).
-/

namespace Sys2Proof

variable {f : CommandFields} {w : CmdWord} {i : Instr} {why : Reserved}

@[simp] theorem fieldsOf_wordOf (f : CommandFields) : fieldsOf (wordOf f) = f := by
  simp only [fieldsOf, wordOf, BitVec.extractLsb'_append_eq_left, BitVec.extractLsb'_append_eq_right]

@[simp] theorem wordOf_fieldsOf (w : CmdWord) : wordOf (fieldsOf w) = w :=
  BitVec.extractLsb'_append_extractLsb' (w := 3) (len := 8)

@[simp] theorem wordOf_inj {g : CommandFields} : wordOf f = wordOf g ↔ f = g :=
  (Function.LeftInverse.injective fieldsOf_wordOf).eq_iff

/-- `{op, imm}` is `(op << 8) | imm` (R52). -/
theorem wordOf_eq_or (f : CommandFields) : wordOf f = f.op.zeroExtend 11 <<< 8 ||| f.imm.zeroExtend 11 := by
  rw [wordOf, BitVec.append_def, BitVec.shiftLeftZeroExtend_eq, BitVec.setWidth'_eq]

theorem encode_init (b : Byte) : encode (.init b) = 0x000 ||| b.zeroExtend 11 := wordOf_eq_or ⟨0, b⟩

theorem encode_encb (b : Byte) : encode (.encb b) = 0x300 ||| b.zeroExtend 11 := wordOf_eq_or ⟨3, b⟩

theorem encode_eq_iff : encode i = w ↔ fieldsOf w = fieldsOfInstr i := by
  rw [encode, ← wordOf_inj, wordOf_fieldsOf, eq_comm]

/-- The fields of the words reserved by each row of R48. -/
def CommandFields.ReservedAs (f : CommandFields) : Reserved → Prop
  | .stepOperand => f.op = 1 ∧ f.imm ≠ 0
  | .advOperand => f.op = 2 ∧ f.imm ≠ 0
  | .runOperand => f.op = 4 ∧ f.imm ≠ 0
  | .unassignedOp => 5 ≤ f.op.toNat

/-- Every pair of fields is a command's or is reserved. -/
theorem CommandFields.command_or_reserved (f : CommandFields) :
    (∃ i, f = fieldsOfInstr i) ∨ ∃ why, f.ReservedAs why := by
  obtain ⟨op, imm⟩ := f
  have hop : op = 0 ∨ op = 1 ∨ op = 2 ∨ op = 3 ∨ op = 4 ∨ 5 ≤ op.toNat := by
    revert op
    decide
  obtain rfl | rfl | rfl | rfl | rfl | hop := hop
  · exact .inl ⟨.init imm, rfl⟩
  · by_cases h : imm = 0
    · exact .inl ⟨.step, by rw [h]; rfl⟩
    · exact .inr ⟨.stepOperand, rfl, h⟩
  · by_cases h : imm = 0
    · exact .inl ⟨.adv, by rw [h]; rfl⟩
    · exact .inr ⟨.advOperand, rfl, h⟩
  · exact .inl ⟨.encb imm, rfl⟩
  · by_cases h : imm = 0
    · exact .inl ⟨.run, by rw [h]; rfl⟩
    · exact .inr ⟨.runOperand, rfl, h⟩
  · exact .inr ⟨.unassignedOp, hop⟩

theorem decode_of_fieldsOf_eq (h : fieldsOf w = fieldsOfInstr i) : decode w = .command i := by
  cases i <;> simp [decode, h, fieldsOfInstr]

theorem decode_of_reservedAs (h : (fieldsOf w).ReservedAs why) : decode w = .reserved why := by
  cases why with
  | unassignedOp =>
    have hop : ∀ k : BitVec 3, k.toNat ≤ 4 → (fieldsOf w).op ≠ k := by
      rintro _ hk rfl
      exact absurd (Nat.le_trans h hk) (by decide)
    simp [decode, hop]
  | _ =>
    obtain ⟨hop, himm⟩ := h
    simpa [decode, hop] using himm

theorem decode_eq_command_iff : decode w = .command i ↔ fieldsOf w = fieldsOfInstr i := by
  refine ⟨fun h => ?_, decode_of_fieldsOf_eq⟩
  obtain ⟨j, hj⟩ | ⟨why, hwhy⟩ := (fieldsOf w).command_or_reserved
  · rw [decode_of_fieldsOf_eq hj] at h
    cases h
    exact hj
  · rw [decode_of_reservedAs hwhy] at h
    cases h

theorem decode_eq_reserved_iff : decode w = .reserved why ↔ (fieldsOf w).ReservedAs why := by
  refine ⟨fun h => ?_, decode_of_reservedAs⟩
  obtain ⟨j, hj⟩ | ⟨why', hwhy⟩ := (fieldsOf w).command_or_reserved
  · rw [decode_of_fieldsOf_eq hj] at h
    cases h
  · rw [decode_of_reservedAs hwhy] at h
    cases h
    exact hwhy

/-- A word decodes to the command that it encodes, and to no other. -/
theorem decode_eq_command_iff_encode_eq : decode w = .command i ↔ encode i = w :=
  decode_eq_command_iff.trans encode_eq_iff.symm

end Sys2Proof
end

section
/-!
PROOF. Decode and encode agree (R45, R46, R49).
-/

namespace Sys2Proof.Machine

/-- Settles O1: a word and its fields determine each other, and the decoder answers a command exactly on its fields. -/
theorem decodeEncodeRoundTrip : Obligations.DecodeEncodeRoundTrip :=
  ⟨fun _ _ => decode_eq_command_iff_encode_eq.mpr rfl, fun _ _ => decode_eq_command_iff_encode_eq.mp⟩

end Sys2Proof.Machine
end

section
/-!
SUPPORT. What the rows of the opcode table select (R46) and where the reserved words are (R48).
-/

namespace Sys2Proof

variable {w : CmdWord} {r : OpcodeRow}

/-- The mask `0x700` keeps the operation code and clears the operand. -/
theorem and_opMask_eq_iff {op : BitVec 3} : w &&& 0x700 = wordOf ⟨op, 0⟩ ↔ (fieldsOf w).op = op := by
  have h : w &&& 0x700 = wordOf ⟨(fieldsOf w).op, 0⟩ := by
    conv_lhs => rw [← wordOf_fieldsOf w]
    rw [show (0x700 : CmdWord) = BitVec.allOnes 3 ++ (0 : Byte) by decide, wordOf, BitVec.and_append,
      BitVec.and_allOnes]
    exact congrArg _ BitVec.and_zero
  rw [h, wordOf_inj, CommandFields.mk.injEq, and_iff_left rfl]

theorem and_fullMask (w : CmdWord) : w &&& 0x7FF = w := BitVec.and_allOnes

/-- Every row's mask keeps the whole operation code. -/
theorem op_eq_of_selects (hr : r ∈ opcodeTable) (h : r.selects w = true) : (fieldsOf r.pattern).op = (fieldsOf w).op := by
  have hmask : ∀ r ∈ opcodeTable, (fieldsOf r.mask).op = BitVec.allOnes 3 := by decide
  rw [OpcodeRow.selects, beq_iff_eq] at h
  calc (fieldsOf r.pattern).op
    _ = (fieldsOf w).op &&& (fieldsOf r.mask).op := by rw [← h]; exact BitVec.extractLsb'_and
    _ = (fieldsOf w).op := by rw [hmask r hr, BitVec.and_allOnes]

theorem length_filter_selects_le_one (w : CmdWord) : (opcodeTable.filter fun r => r.selects w).length ≤ 1 := by
  have hdistinct : ∀ op, opcodeTable.countP (fun r => (fieldsOf r.pattern).op == op) ≤ 1 := by decide
  rw [← List.countP_eq_length_filter]
  refine (List.countP_mono_left fun r hr h => ?_).trans (hdistinct (fieldsOf w).op)
  exact beq_iff_eq.mpr (op_eq_of_selects hr h)

theorem toNat_eq_fields (w : CmdWord) : w.toNat = (fieldsOf w).op.toNat * 256 + (fieldsOf w).imm.toNat := by
  conv_lhs => rw [← wordOf_fieldsOf w]
  rw [wordOf, BitVec.toNat_append, ← Nat.shiftLeft_add_eq_or_of_lt (BitVec.isLt _), Nat.shiftLeft_eq]

/-- The ranges of the table in R48. -/
def reservedRange : Reserved → Finset Nat
  | .stepOperand => Finset.Icc 0x101 0x1FF
  | .advOperand => Finset.Icc 0x201 0x2FF
  | .runOperand => Finset.Icc 0x401 0x4FF
  | .unassignedOp => Finset.Icc 0x500 0x7FF

theorem decode_eq_reserved_iff_mem_range {why : Reserved} :
    decode w = .reserved why ↔ w.toNat ∈ reservedRange why := by
  have hw := toNat_eq_fields w
  have himm := (fieldsOf w).imm.isLt
  have hop := (fieldsOf w).op.isLt
  rw [decode_eq_reserved_iff]
  cases why <;>
    simp only [CommandFields.ReservedAs, reservedRange, Finset.mem_Icc, ne_eq, ← BitVec.toNat_inj, BitVec.ofNat_eq_ofNat,
      BitVec.toNat_ofNat] <;>
    omega

theorem decode_ofNat_eq_reserved_iff {n : Nat} (hn : n < 2048) {why : Reserved} :
    decode (BitVec.ofNat 11 n) = .reserved why ↔ n ∈ reservedRange why := by
  rw [decode_eq_reserved_iff_mem_range, BitVec.toNat_ofNat, Nat.mod_eq_of_lt hn]

theorem isNone_decodeTableWord_iff {n : Nat} (hn : n < 2048) :
    (decodeTableWord 11 n).isNone = true ↔ ∃ why, n ∈ reservedRange why := by
  have hword : tableWord 11 n = some (BitVec.ofNat 11 n) := by simp [tableWord, Nat.mod_eq_of_lt hn, hn]
  simp only [← decode_ofNat_eq_reserved_iff hn]
  cases hd : decode (BitVec.ofNat 11 n) <;> simp [decodeTableWord, hword, hd]

/-- The four rows of R48. -/
def reservedClasses : Finset Reserved := {.stepOperand, .advOperand, .runOperand, .unassignedOp}

theorem mem_reservedClasses (why : Reserved) : why ∈ reservedClasses := by
  cases why <;> decide

theorem lt_of_mem_reservedRange {why : Reserved} {n : Nat} (h : n ∈ reservedRange why) : n < 2048 := by
  cases why <;> simp only [reservedRange, Finset.mem_Icc] at h <;> omega

/-- A word has one decoding, so the ranges do not overlap. -/
theorem disjoint_reservedRange {a b : Reserved} (hab : a ≠ b) : Disjoint (reservedRange a) (reservedRange b) := by
  refine Finset.disjoint_left.mpr fun n ha hb => hab ?_
  have hn := lt_of_mem_reservedRange ha
  rw [← decode_ofNat_eq_reserved_iff hn] at ha hb
  rw [ha] at hb
  cases hb
  rfl

theorem toFinset_filter_isNone_decodeTableWord :
    ((List.range 2048).filter fun n => (decodeTableWord 11 n).isNone).toFinset =
      reservedClasses.biUnion reservedRange := by
  ext n
  rw [List.mem_toFinset, List.mem_filter, List.mem_range, and_congr_right isNone_decodeTableWord_iff,
    Finset.mem_biUnion]
  constructor
  · rintro ⟨-, why, h⟩
    exact ⟨why, mem_reservedClasses why, h⟩
  · rintro ⟨why, -, h⟩
    exact ⟨lt_of_mem_reservedRange h, why, h⟩

/-- The number of reserved words is the sum of the sizes of the table's ranges (R48). -/
theorem length_filter_isNone_decodeTableWord :
    ((List.range 2048).filter fun n => (decodeTableWord 11 n).isNone).length = 1533 := by
  rw [← List.toFinset_card_of_nodup (List.nodup_range.filter _), toFinset_filter_isNone_decodeTableWord,
    Finset.card_biUnion fun _ _ _ _ => disjoint_reservedRange]
  simp [reservedClasses, reservedRange]

end Sys2Proof
end

section
/-!
SUPPORT. Which transition a step is at which a reserved word is offered.
-/

namespace Sys2Proof.Machine

variable {s : State}

/-- The step of an idle core at which a reserved word is offered is that word's acceptance (R48, R110). -/
theorem step_of_reserved {w : CmdWord} {why : Reserved} (hr : s.rst = false) (hp : s.ph = .idle)
    (hw : s.offeredCommand = some w) (hd : decode w = .reserved why) : step s = acceptReserved s := by
  simp [step, hr, hp, hw, hd]

end Sys2Proof.Machine
end

section
/-!
PROOF. The opcode table and the reserved words (R46, R48, R49).
-/

namespace Sys2Proof.Machine

/-- Settles O2: the mask of INIT and ENCB compares the operation code only, and the full mask compares the word with the
command's own. -/
theorem wordSelectsCommandByMaskAndMatch : Obligations.WordSelectsCommandByMaskAndMatch := by
  refine ⟨fun w => ?_, length_filter_selects_le_one⟩
  have hoperand (op : BitVec 3) : fieldsOf w = ⟨op, w.extractLsb' 0 8⟩ ↔ w &&& 0x700 = wordOf ⟨op, 0⟩ := by
    rw [and_opMask_eq_iff]
    exact ⟨fun h => by rw [h], fun h => by rw [← h]; rfl⟩
  have hplain (i : Instr) : decode w = .command i ↔ w &&& 0x7FF = encode i := by
    rw [decode_eq_command_iff_encode_eq, and_fullMask, eq_comm]
  exact ⟨decode_eq_command_iff.trans (hoperand 0), hplain .step, hplain .adv,
    decode_eq_command_iff.trans (hoperand 3), hplain .run⟩

/-- Settles O4: twelve words, each decoded. -/
theorem writtenOutWordsDecode : Obligations.WrittenOutWordsDecode := by
  unfold Obligations.WrittenOutWordsDecode
  decide

/-- Settles O3: the decoder's reserved fields lie in the table's ranges, whose sizes add up, and the acceptance of a
reserved word is the fault. -/
theorem reservedWordsFault : Obligations.ReservedWordsFault := by
  refine ⟨fun w => ?_, length_filter_isNone_decodeTableWord, fun s w why hr hp hw hd => step_of_reserved hr hp hw hd⟩
  have hrange (why : Reserved) := decode_eq_reserved_iff_mem_range (w := w) (why := why)
  have hlast : w.toNat ∈ reservedRange .unassignedOp ↔ 0x500 ≤ w.toNat :=
    Finset.mem_Icc.trans (and_iff_left (Nat.le_of_lt_succ w.isLt))
  exact ⟨(hrange .stepOperand).trans Finset.mem_Icc, (hrange .advOperand).trans Finset.mem_Icc,
    (hrange .runOperand).trans Finset.mem_Icc, (hrange .unassignedOp).trans hlast⟩

end Sys2Proof.Machine
end

section
/-!
SUPPORT. The layout of the status word, and what no transition but a reset clears (R50).
-/

namespace Sys2Proof.Machine

variable {s t : State}

theorem status_eq_concat (s : State) : s.status = ((s.cause.concat s.err).concat s.busy).concat s.seeded := by
  rw [State.status, BitVec.append_ofBool, BitVec.append_ofBool, BitVec.append_ofBool]

theorem extractLsb'_status (s : State) : s.status.extractLsb' 3 2 = s.cause := by
  rw [State.status, BitVec.extractLsb'_append_eq_of_le (by decide), BitVec.extractLsb'_append_eq_of_le (by decide)]
  exact BitVec.extractLsb'_append_eq_left

/-- Only a reset clears `SEEDED`. -/
theorem Transition.seeded_mono (h : Transition s t) (hr : s.rst = false) (hs : s.seeded = true) : t.seeded = true := by
  cases h with
  | reset hrst => simp [hr] at hrst
  | initLoad | seedDraw => rfl
  | _ => exact hs

/-- A fault is taken in `IDLE`, where the invariant has `ERR = 0`, so it overwrites no earlier cause (R112, R115). -/
theorem Transition.fault_kept (h : Transition s t) (hi : s.FaultAgrees) (hr : s.rst = false) (he : s.err = true) :
    t.err = true ∧ t.cause = s.cause := by
  obtain ⟨herr, -⟩ := hi
  have hhalt : s.ph = .halt := herr.mp he
  cases h with
  | reset hrst => simp [hr] at hrst
  | reservedFault _ _ hp => simp [hhalt] at hp
  | unseededFault _ ho =>
    obtain ⟨-, hp, -⟩ := ho
    simp [hhalt] at hp
  | _ => exact ⟨he, rfl⟩

end Sys2Proof.Machine
end

section
/-!
PROOF. The status word (R50).
-/

namespace Sys2Proof.Machine

/-- Settles O35: the flags are the low bits of the concatenation; in `HALT` the core is not busy; no transition but a reset
clears a flag, and the actions of the environment write none. -/
theorem statusWordLayoutAndClearing : Obligations.StatusWordLayoutAndClearing := by
  refine ⟨fun s => ?_, fun s hi => ?_, fun s t hi hr h => ?_, fun a s => ?_, by decide⟩
  · refine ⟨?_, ?_, ?_, extractLsb'_status s⟩ <;> simp [status_eq_concat]
  · obtain ⟨-, -, ⟨herr, hcause⟩, -⟩ := hi
    refine ⟨fun he => ?_, hcause⟩
    have hp := herr.mp he
    exact ⟨by simp [State.busy, phaseBusy, hp], hp⟩
  · obtain ⟨-, -, hfault, -⟩ := hi
    have htrans := transition_of_step h
    exact ⟨htrans.seeded_mono hr, htrans.fault_kept hfault hr⟩
  · cases a <;> rfl

end Sys2Proof.Machine
end

section
/-!
SUPPORT. What the ports of R55 show before each transition, and that each transition transfers exactly that.
-/

namespace Sys2Proof.Machine

variable {s t : State} {i : Instr}

theorem cmdValid_of_decoded {d : Decoded} (h : s.offeredCommand.map decode = some d) : s.cmdValid = true := by
  rw [State.cmdValid, ← Option.isSome_map, h, Option.isSome_some]

theorem cmdValid_of_encbPushes (h : s.encbPushes = true) : s.cmdValid = true := by
  refine Option.isSome_iff_ne_none.mpr fun hnone => ?_
  simp [encbPushes_of_none hnone] at h

theorem encbPushes_of_decoded_reserved {why : Reserved} (h : s.offeredCommand.map decode = some (.reserved why)) :
    s.encbPushes = false := by
  obtain ⟨w, hw, hd⟩ := Option.map_eq_some_iff.mp h
  exact encbPushes_of_reserved hw hd

theorem encbPushes_of_offered (ho : s.Offered i) : s.encbPushes = (isEncb i && s.seeded) := by
  obtain ⟨-, -, hd⟩ := ho
  obtain ⟨w, hw, hd⟩ := Option.map_eq_some_iff.mp hd
  exact encbPushes_of_command hw hd

/-- An idle core is ready for a word unless the word is an ENCB that must wait for the consumer (R117). -/
theorem cmdReady_of_idle (hr : s.rst = false) (hp : s.ph = .idle) : s.cmdReady = !(s.encbPushes && !s.ctReady) := by
  simp [State.cmdReady, hr, hp]

theorem cmdReady_of_ne_idle (hp : s.ph ≠ .idle) : s.cmdReady = false := by
  simp [State.cmdReady, hp]

theorem rndReady_of_ne_draw (hs : s.ph ≠ .seedw) (hc : s.ph ≠ .cntw) : s.rndReady = false := by
  simp [State.rndReady, hs, hc]

theorem ctValid_of_idle (hr : s.rst = false) (hp : s.ph = .idle) : s.ctValid = s.encbPushes := by
  simp [State.ctValid, hr, hp]

theorem ctValid_of_ne (hi : s.ph ≠ .idle) (he : s.ph ≠ .enc) : s.ctValid = false := by
  simp [State.ctValid, hi, he]

/-- An idle core takes a word that does not push, and a word that pushes when the consumer takes the byte. -/
theorem accepts_of_idle (hr : s.rst = false) (hp : s.ph = .idle) (hv : s.cmdValid = true)
    (hc : s.encbPushes = false ∨ s.ctReady = true) : (s.cmdValid && s.cmdReady) = true := by
  rw [cmdReady_of_idle hr hp]
  obtain hc | hc := hc <;> simp [hv, hc]

/-- A core that waits transfers nothing on any port (R117). -/
theorem no_transfer_of_waiting (hw : s.waiting = true) :
    (s.cmdValid && s.cmdReady) = false ∧ (s.rndValid && s.rndReady) = false ∧ (s.ctValid && s.ctReady) = false := by
  obtain ⟨hr, hw⟩ := Bool.and_eq_true_iff.mp hw
  rw [Bool.not_eq_true'] at hr
  cases hp : s.ph with
  | idle =>
    simp only [hp, Bool.not_eq_true'] at hw
    refine ⟨hw, by simp [State.rndReady, hp], ?_⟩
    rw [ctValid_of_idle hr hp, Bool.and_eq_false_imp]
    intro hpush
    simpa [cmdReady_of_idle hr hp, cmdValid_of_encbPushes hpush, hpush] using hw
  | _ => simp_all [State.cmdReady, State.rndReady, State.ctValid]

theorem Transition.cmd_eq (h : Transition s t) (hr : s.rst = false) :
    t.cmd = if s.cmdValid && s.cmdReady then s.cmd.tail else s.cmd := by
  cases h with
  | reset hrst => simp [hr] at hrst
  | wait hw =>
    obtain ⟨hcmd, -, -⟩ := no_transfer_of_waiting hw
    simp [hcmd]
  | reservedFault _ _ hp hd =>
    simp [accepts_of_idle hr hp (cmdValid_of_decoded hd) (.inl (encbPushes_of_decoded_reserved hd))]
  | unseededFault _ ho _ hs =>
    have ⟨_, hp, hd⟩ := ho
    simp [accepts_of_idle hr hp (cmdValid_of_decoded hd) (.inl (by simp [encbPushes_of_offered ho, hs]))]
  | initLoad _ _ ho | initUnset ho | stepCommand _ ho | advCommand ho | runCommand ho =>
    have ⟨_, hp, hd⟩ := ho
    simp [accepts_of_idle hr hp (cmdValid_of_decoded hd) (.inl (by simp [encbPushes_of_offered ho, isEncb]))]
  | encbCommand _ _ ho _ _ hc =>
    have ⟨_, hp, hd⟩ := ho
    simp [accepts_of_idle hr hp (cmdValid_of_decoded hd) (.inr hc)]
  | zeroSeedDraw _ hp | seedDraw _ _ _ hp | countDraw _ _ hp | countedStep _ _ hp | endAdv _ hp | nextByte _ hp
  | endRun _ hp | encryptByte _ _ _ hp => simp [cmdReady_of_ne_idle, hp]

theorem Transition.rp_eq (h : Transition s t) : t.rp = if s.rndValid && s.rndReady then s.rp + 1 else s.rp := by
  cases h with
  | reset hr => simp [State.rndReady, hr]
  | wait hw =>
    obtain ⟨-, hrnd, -⟩ := no_transfer_of_waiting hw
    simp [hrnd]
  | zeroSeedDraw hr hp hd | seedDraw _ _ hr hp hd | countDraw _ hr hp hd =>
    simp [State.rndValid, State.rndReady, hr, hp, hd]
  | unseededFault _ ho | initLoad _ _ ho | initUnset ho | stepCommand _ ho | advCommand ho | encbCommand _ _ ho
  | runCommand ho =>
    obtain ⟨-, hp, -⟩ := ho
    simp [rndReady_of_ne_draw, hp]
  | reservedFault _ _ hp | countedStep _ _ hp | endAdv _ hp | nextByte _ hp | endRun _ hp | encryptByte _ _ _ hp =>
    simp [rndReady_of_ne_draw, hp]

theorem Transition.ct_eq (h : Transition s t) :
    t.ct = if s.ctValid && s.ctReady then s.ct ++ [t.ctPort] else s.ct := by
  cases h with
  | reset hr => simp [State.ctValid, hr]
  | wait hw =>
    obtain ⟨-, -, hct⟩ := no_transfer_of_waiting hw
    simp [hct]
  | reservedFault _ hr hp hd => simp [ctValid_of_idle hr hp, encbPushes_of_decoded_reserved hd]
  | unseededFault _ ho _ hs =>
    have ⟨hr, hp, _⟩ := ho
    simp [ctValid_of_idle hr hp, encbPushes_of_offered ho, hs]
  | initLoad _ _ ho | initUnset ho | stepCommand _ ho | advCommand ho | runCommand ho =>
    have ⟨hr, hp, _⟩ := ho
    simp [ctValid_of_idle hr hp, encbPushes_of_offered ho, isEncb]
  | encbCommand _ _ ho hs _ hc =>
    have ⟨hr, hp, _⟩ := ho
    simp [ctValid_of_idle hr hp, encbPushes_of_offered ho, isEncb, hs, hc, State.ctPort]
  | zeroSeedDraw _ hp | seedDraw _ _ _ hp | countDraw _ _ hp | countedStep _ _ hp | endAdv _ hp | nextByte _ hp
  | endRun _ hp => simp [ctValid_of_ne, hp]
  | encryptByte _ _ hr hp _ _ hc => simp [State.ctValid, State.ctPort, hr, hp, hc]

end Sys2Proof.Machine
end

section
/-!
PROOF. Transfers on the ports (R31, R33, R55, R103, R117).
-/

namespace Sys2Proof.Machine

/-- Settles O58: each transition transfers exactly what the ports show before it, and `ENC` pushes the byte of the plaintext
port xor the key. -/
theorem portHandshakes : Obligations.PortHandshakes := by
  refine ⟨fun s hready => ?_, fun s t _ hr h => (transition_of_step h).cmd_eq hr, fun s t _ h => ?_, fun s hi hp => ?_,
    fun s t v p hr hp hv hdata hc h => ?_⟩
  · by_contra hp
    simp [cmdReady_of_ne_idle hp] at hready
  · have htrans := transition_of_step h
    exact ⟨htrans.rp_eq, htrans.ct_eq⟩
  · obtain ⟨-, -, -, hphase, -⟩ := hi
    have hlt := hphase.idx_lt hp
    exact ⟨hlt, rfl, by simpa [State.ptData, State.ptRead, State.ptIdx] using hlt⟩
  · rw [step_enc hr hp] at h
    obtain ⟨q, u, hq, hu, -, rfl⟩ | ⟨hwait, -⟩ := encryptByte_next h
    · cases hv.symm.trans hu
      cases hdata.symm.trans hq
      rfl
    · simp [hc] at hwait

end Sys2Proof.Machine
end

section
/-!
SUPPORT. The assembler reads a number back from its digits, and a line with an operand (R52).
-/

namespace Sys2Proof.Machine

/-- The assembler reads each digit that `Nat.toDigits` writes. -/
theorem digitValue_digitChar {base d : Nat} (hbase : base = 10 ∨ base = 16) (hd : d < base) :
    digitValue base d.digitChar = some d := by
  obtain rfl | rfl := hbase <;> interval_cases d <;> rfl

/-- Reading digits to their end and then reading on is reading the longer text. -/
theorem moreDigits_append (base acc m : Nat) (ds cs : List Char) (h : moreDigits base acc ds = (m, [])) :
    moreDigits base acc (ds ++ cs) = moreDigits base m cs := by
  induction ds generalizing acc with
  | nil =>
    cases h
    rfl
  | cons d ds ih =>
    unfold moreDigits at h
    rw [List.cons_append, moreDigits]
    cases hd : digitValue base d with
    | none => simp [hd] at h
    | some v =>
      simp only [hd] at h ⊢
      exact ih _ h

theorem moreDigits_toDigits {base : Nat} (hbase : base = 10 ∨ base = 16) (n : Nat) :
    moreDigits base 0 (Nat.toDigits base n) = (n, []) := by
  have h1 : 1 < base := by omega
  induction n using Nat.strongRecOn with
  | ind n ih =>
    by_cases hn : n < base
    · simp [Nat.toDigits_of_lt_base hn, moreDigits, digitValue_digitChar hbase hn]
    · have hdiv : n / base < n := Nat.div_lt_self (by omega) h1
      rw [Nat.toDigits_of_base_le h1 (by omega), moreDigits_append _ _ _ _ _ (ih _ hdiv)]
      simp [moreDigits, digitValue_digitChar hbase (Nat.mod_lt n (by omega : base > 0)), Nat.div_add_mod]

theorem numberAt_toDigits {base : Nat} (hbase : base = 10 ∨ base = 16) (n : Nat) :
    numberAt base (Nat.toDigits base n) = some (n, []) := by
  have h := moreDigits_toDigits hbase n
  cases hds : Nat.toDigits base n with
  | nil => exact absurd hds Nat.toDigits_ne_nil
  | cons c cs =>
    rw [hds, moreDigits] at h
    cases hc : digitValue base c with
    | none => simp [hc] at h
    | some d => simpa [numberAt, hc] using h

/-- A text of digits is neither quoted nor hexadecimal. -/
theorem operandAt_of_isDigit {cs : List Char} (h : ∀ c ∈ cs, c.isDigit = true) : operandAt cs = numberAt 10 cs := by
  unfold operandAt
  split
  · exact absurd (h '\'' (by simp)) (by decide)
  · exact absurd (h 'x' (by simp)) (by decide)
  · rfl

theorem operandAt_decimal (n : Nat) : operandAt (Nat.toDigits 10 n) = some (n, []) := by
  rw [operandAt_of_isDigit fun _ hc => Nat.isDigit_of_mem_toDigits (by decide) (le_refl 10) hc]
  exact numberAt_toDigits (.inl rfl) n

theorem operandAt_hex (n : Nat) : operandAt ('0' :: 'x' :: Nat.toDigits 16 n) = some (n, []) :=
  numberAt_toDigits (.inr rfl) n

theorem operandAt_quoted {c : Char} (hc : c.toNat < 128) : operandAt ['\'', c, '\''] = some (c.toNat, []) :=
  if_pos hc

theorem isBlank_eq_false_of_isDigit {c : Char} (h : c.isDigit = true) : isBlank c = false := by
  refine Bool.or_eq_false_iff.mpr ⟨beq_eq_false_iff_ne.mpr ?_, beq_eq_false_iff_ne.mpr ?_⟩
  · rintro rfl
    exact absurd h (by decide)
  · rintro rfl
    exact absurd h (by decide)

theorem dropWhile_isBlank_of_isDigit {cs : List Char} (h : ∀ c ∈ cs, c.isDigit = true) : cs.dropWhile isBlank = cs := by
  cases cs with
  | nil => rfl
  | cons c cs => exact List.dropWhile_cons_of_neg (by simp [isBlank_eq_false_of_isDigit (h c List.mem_cons_self)])

/-- A line that ends after its operand gives the command's word when the operand is in range (R52). -/
theorem assembleOperand_of_operandAt (command : Byte → Instr) {cs : List Char} {n : Nat}
    (hblank : cs.dropWhile isBlank = cs) (h : operandAt cs = some (n, [])) :
    assembleOperand command (' ' :: cs) = if n ≤ 255 then .word (encode (command (BitVec.ofNat 8 n))) else .error := by
  simp [assembleOperand, isBlank, hblank, h, operandInRange, lineEnds]

theorem assembleOperand_decimal (command : Byte → Instr) (n : Nat) :
    assembleOperand command (' ' :: Nat.toDigits 10 n) =
      if n ≤ 255 then .word (encode (command (BitVec.ofNat 8 n))) else .error :=
  assembleOperand_of_operandAt command
    (dropWhile_isBlank_of_isDigit fun _ hc => Nat.isDigit_of_mem_toDigits (by decide) (le_refl 10) hc)
    (operandAt_decimal n)

theorem assembleOperand_hex (command : Byte → Instr) (n : Nat) :
    assembleOperand command (' ' :: '0' :: 'x' :: Nat.toDigits 16 n) =
      if n ≤ 255 then .word (encode (command (BitVec.ofNat 8 n))) else .error :=
  assembleOperand_of_operandAt command rfl (operandAt_hex n)

theorem assembleOperand_quoted (command : Byte → Instr) {c : Char} (hc : c.toNat < 128) :
    assembleOperand command [' ', '\'', c, '\''] = .word (encode (command (BitVec.ofNat 8 c.toNat))) :=
  (assembleOperand_of_operandAt command rfl (operandAt_quoted hc)).trans (if_pos (by omega))

theorem assemble_init (cs : List Char) :
    assemble (['I', 'N', 'I', 'T', ' '] ++ cs) = assembleOperand .init (' ' :: cs) := rfl

theorem assemble_encb (cs : List Char) :
    assemble (['E', 'N', 'C', 'B', ' '] ++ cs) = assembleOperand .encb (' ' :: cs) := rfl

end Sys2Proof.Machine
end

section
/-!
PROOF. The words the assembler gives (R52, R53).
-/

namespace Sys2Proof.Machine

/-- Settles O5: each form of operand is read back as its number, which is then in range or not. -/
theorem assembledWords : Obligations.AssembledWords := by
  refine ⟨fun b => ⟨?_, ?_, ?_⟩, fun c hc => ?_, by decide⟩
  · rw [assemble_init, assembleOperand_decimal, if_pos (by omega), BitVec.ofNat_toNat, BitVec.setWidth_eq, encode_init]
  · calc assemble (['E', 'N', 'C', 'B', ' '] ++ ('0' :: 'x' :: Nat.toDigits 16 b.toNat))
      _ = .word (0x300 ||| b.zeroExtend 11) := by
        rw [assemble_encb, assembleOperand_hex, if_pos (by omega), BitVec.ofNat_toNat, BitVec.setWidth_eq,
          encode_encb]
  · rw [assemble_encb, assembleOperand_decimal, if_neg (by omega)]
  · calc assemble (['E', 'N', 'C', 'B', ' '] ++ ['\'', c, '\''])
      _ = .word (0x300 ||| (BitVec.ofNat 8 c.toNat).zeroExtend 11) := by
        rw [assemble_encb, assembleOperand_quoted _ hc, encode_encb]
      _ = .word (0x300 ||| BitVec.ofNat 11 c.toNat) := by
        rw [BitVec.zeroExtend, BitVec.setWidth_ofNat_of_le_of_lt]
        · decide
        · omega

end Sys2Proof.Machine
end

section
/-!
SUPPORT. Step and its inverse bit by bit, and Step's linearity (R64, R65, R67).
-/

namespace Sys2Proof.Machine

/-- Two states with the same nine bits are equal (R5). -/
theorem eq_of_bitAt_eq {v u : Lfsr} (h : ∀ k, k < 9 → bitAt v k = bitAt u k) : v = u :=
  BitVec.eq_of_getMsbD_eq h

theorem feedback_eq_xor (v : Lfsr) : feedback v = (bitAt v 0 ^^ bitAt v 5 ^^ bitAt v 7 ^^ bitAt v 8) := by
  simp [feedback, taps]

theorem toNat_xor (a b : Bool) : (a ^^ b).toNat = (a.toNat + b.toNat) % 2 := by
  cases a <;> cases b <;> rfl

theorem bitAt_xor (a b : Lfsr) (k : Nat) : bitAt (a ^^^ b) k = (bitAt a k ^^ bitAt b k) := by
  simp [bitAt]

theorem feedback_xor (a b : Lfsr) : feedback (a ^^^ b) = (feedback a ^^ feedback b) := by
  simp only [feedback_eq_xor, bitAt_xor, Bool.xor_assoc, Bool.xor_left_comm]

theorem lfsrStep_xor (a b : Lfsr) : lfsrStep (a ^^^ b) = lfsrStep a ^^^ lfsrStep b := by
  refine eq_of_bitAt_eq fun k hk => ?_
  cases k with
  | zero => simp only [bitAt_xor, bitAt_lfsrStep_zero, feedback_xor]
  | succ k => simp only [bitAt_xor, bitAt_lfsrStep_succ _ (Nat.lt_of_succ_lt_succ hk)]

/-- Packed: the feedback becomes the most significant bit, above the old state without its tail (R65). -/
theorem toNat_lfsrStep (v : Lfsr) : (lfsrStep v).toNat = (feedback v).toNat <<< 8 ||| v.toNat >>> 1 := by
  have hlt : v.toNat >>> 1 < 2 ^ 8 := by omega
  rw [lfsrStep, BitVec.toNat_cons, BitVec.extractLsb'_toNat, Nat.mod_eq_of_lt hlt]

theorem bitAt_unstep_of_lt (t : Lfsr) {k : Nat} (hk : k < 8) : bitAt (unstep t) k = bitAt t (k + 1) := by
  refine (BitVec.getMsbD_append (n := 8)).trans ?_
  rw [if_neg (by omega), BitVec.getMsbD_extractLsb', show 9 - (0 + 8 - k) = k + 1 by omega]
  simp [bitAt, hk, show 8 - k ≤ 9 by omega]

theorem bitAt_unstep_tail (t : Lfsr) : bitAt (unstep t) 8 = (bitAt t 0 ^^ bitAt t 1 ^^ bitAt t 6 ^^ bitAt t 8) := by
  refine (BitVec.getMsbD_append (n := 8)).trans ?_
  simp

/-- The feedback that Step shifted in gives back the tail that it dropped (R67). -/
theorem unstep_lfsrStep (v : Lfsr) : unstep (lfsrStep v) = v := by
  refine eq_of_bitAt_eq fun k hk => ?_
  obtain hk | rfl : k < 8 ∨ k = 8 := by omega
  · rw [bitAt_unstep_of_lt _ hk, bitAt_lfsrStep_succ _ hk]
  · have hhead : bitAt (lfsrStep v) 1 = bitAt v 0 := bitAt_lfsrStep_succ v (by decide)
    have htap5 : bitAt (lfsrStep v) 6 = bitAt v 5 := bitAt_lfsrStep_succ v (by decide)
    have htap7 : bitAt (lfsrStep v) 8 = bitAt v 7 := bitAt_lfsrStep_succ v (by decide)
    rw [bitAt_unstep_tail, bitAt_lfsrStep_zero, hhead, htap5, htap7, feedback_eq_xor]
    grind

theorem lfsrStep_unstep (t : Lfsr) : lfsrStep (unstep t) = t := by
  refine eq_of_bitAt_eq fun k hk => ?_
  cases k with
  | zero =>
    have hhead : bitAt (unstep t) 0 = bitAt t 1 := bitAt_unstep_of_lt t (by decide)
    have htap5 : bitAt (unstep t) 5 = bitAt t 6 := bitAt_unstep_of_lt t (by decide)
    have htap7 : bitAt (unstep t) 7 = bitAt t 8 := bitAt_unstep_of_lt t (by decide)
    rw [bitAt_lfsrStep_zero, feedback_eq_xor, bitAt_unstep_tail, hhead, htap5, htap7]
    grind
  | succ k =>
    have hk : k < 8 := Nat.lt_of_succ_lt_succ hk
    rw [bitAt_lfsrStep_succ _ hk, bitAt_unstep_of_lt _ hk]

theorem stepN_ne_zero {v : Lfsr} (hv : v ≠ 0) (n : Nat) : stepN v n ≠ 0 := by
  induction n with
  | zero => exact hv
  | succ n ih => exact lfsrStep_ne_zero ih

end Sys2Proof.Machine
end

section
/-!
PROOF. Feedback and Step (R64, R65, R67).
-/

namespace Sys2Proof.Machine

/-- Settles O8: the gate form, and a sum mod 2 of bits is their exclusive or. -/
theorem feedbackIsTapParity : Obligations.FeedbackIsTapParity := by
  refine fun v => ⟨?_, feedback_eq_xor v⟩
  simp only [feedback_eq_xor, toNat_xor, Nat.mod_add_mod]

/-- Settles O9: each bit of the stepped state, and the packed form. -/
theorem stepShiftsFeedbackIntoHead : Obligations.StepShiftsFeedbackIntoHead := by
  refine ⟨fun v => ⟨bitAt_lfsrStep_zero v, fun k hk1 hk8 => ?_, toNat_lfsrStep v⟩, by decide⟩
  obtain ⟨k, rfl⟩ := Nat.exists_eq_succ_of_ne_zero (Nat.ne_of_gt hk1)
  exact bitAt_lfsrStep_succ v hk8

/-- Settles O10: the inverse and the linearity bit by bit; a seed is not zero, and no step takes another state to zero. -/
theorem stepIsInvertibleAndLinear : Obligations.StepIsInvertibleAndLinear :=
  ⟨by decide, fun v => ⟨unstep_lfsrStep v, lfsrStep_unstep v⟩,
    fun t => ⟨fun _ hk => bitAt_unstep_of_lt t hk, bitAt_unstep_tail t⟩, lfsrStep_xor, fun _ hv => lfsrStep_ne_zero hv,
    fun _ n hi => stepN_ne_zero (seedBits_ne_zero hi) n⟩

end Sys2Proof.Machine
end

section
/-!
SUPPORT. The cycles of Step (R68): each table entry's length and smallest state are computed, and counting the states on
the cycles does the rest.
-/

namespace Sys2Proof.Machine

open Function

variable {r q : Lfsr × Nat}

theorem stepN_eq_iterate (v : Lfsr) (n : Nat) : stepN v n = lfsrStep^[n] v := by
  induction n with
  | zero => rfl
  | succ n ih => rw [stepN_succ, ih, iterate_succ_apply']

/-- Each listed state is back after the listed number of steps, and is the least on the way. -/
theorem cycleTable_closes : ∀ r ∈ cycleTable, stepN r.1 r.2 = r.1 ∧ ∀ k < r.2, 0 < k → r.1 < stepN r.1 k := by
  decide +kernel

theorem isPeriodicPt_of_mem (hr : r ∈ cycleTable) : IsPeriodicPt lfsrStep r.2 r.1 := by
  obtain ⟨h, -⟩ := cycleTable_closes r hr
  rwa [stepN_eq_iterate] at h

theorem cycleTable_length : ∀ r ∈ cycleTable, 0 < r.2 ∧ r.2 ∣ 105 := by decide

/-- The listed length is the number of states on the cycle: on the way round the listed state does not come back. -/
theorem minimalPeriod_of_mem (hr : r ∈ cycleTable) : minimalPeriod lfsrStep r.1 = r.2 := by
  obtain ⟨hpos, -⟩ := cycleTable_length r hr
  obtain ⟨-, hleast⟩ := cycleTable_closes r hr
  have hper := isPeriodicPt_of_mem hr
  refine (hper.minimalPeriod_le hpos).antisymm (Nat.le_of_not_lt fun hlt => ?_)
  have h := hleast _ hlt (hper.minimalPeriod_pos hpos)
  rw [stepN_eq_iterate, iterate_minimalPeriod] at h
  exact BitVec.lt_irrefl _ h

theorem le_stepN_of_mem (hr : r ∈ cycleTable) (k : Nat) : r.1 ≤ stepN r.1 k := by
  obtain ⟨hpos, -⟩ := cycleTable_length r hr
  obtain ⟨-, hleast⟩ := cycleTable_closes r hr
  rw [stepN_eq_iterate, ← (isPeriodicPt_of_mem hr).iterate_mod_apply, ← stepN_eq_iterate]
  obtain h | h := (k % r.2).eq_zero_or_pos
  · rw [h, stepN_zero]
    exact BitVec.le_refl _
  · exact BitVec.le_of_lt (hleast _ (Nat.mod_lt _ hpos) h)

/-- From every state on a cycle its listed state comes back: the steps to it are completed to whole rounds. -/
theorem exists_stepN_stepN_eq (hr : r ∈ cycleTable) (k : Nat) : ∃ n, stepN (stepN r.1 k) n = r.1 := by
  obtain ⟨hpos, -⟩ := cycleTable_length r hr
  refine ⟨r.2 * k - k, ?_⟩
  rw [← stepN_add, Nat.add_sub_cancel' (Nat.le_mul_of_pos_left k hpos), stepN_eq_iterate]
  exact (isPeriodicPt_of_mem hr).mul_const k

theorem fst_le_of_stepN_eq (hr : r ∈ cycleTable) (hq : q ∈ cycleTable) {k j : Nat} (h : stepN r.1 k = stepN q.1 j) :
    r.1 ≤ q.1 := by
  obtain ⟨n, hn⟩ := exists_stepN_stepN_eq hq j
  rw [← hn, ← h, ← stepN_add]
  exact le_stepN_of_mem hr _

/-- The cycles of different entries have no state in common. -/
theorem eq_of_stepN_eq (hr : r ∈ cycleTable) (hq : q ∈ cycleTable) {k j : Nat} (h : stepN r.1 k = stepN q.1 j) :
    r = q := by
  have hfst : ∀ r ∈ cycleTable, ∀ q ∈ cycleTable, r.1 = q.1 → r = q := by decide
  exact hfst r hr q hq (BitVec.le_antisymm (fst_le_of_stepN_eq hr hq h) (fst_le_of_stepN_eq hq hr h.symm))

/-- The packed values on the cycle of an entry. -/
def cycleOf (r : Lfsr × Nat) : Finset (Fin (2 ^ 9)) := (Finset.range r.2).image fun k => (stepN r.1 k).toFin

theorem mem_cycleOf {x : Fin (2 ^ 9)} (h : x ∈ cycleOf r) : ∃ k, (stepN r.1 k).toFin = x := by
  obtain ⟨k, -, hk⟩ := Finset.mem_image.mp h
  exact ⟨k, hk⟩

theorem card_cycleOf (hr : r ∈ cycleTable) : (cycleOf r).card = r.2 := by
  refine (Finset.card_image_of_injOn fun k hk j hj h => ?_).trans (Finset.card_range _)
  rw [Finset.coe_range, ← minimalPeriod_of_mem hr] at hk hj
  rw [BitVec.toFin_inj, stepN_eq_iterate, stepN_eq_iterate] at h
  exact iterate_injOn_Iio_minimalPeriod hk hj h

theorem disjoint_cycleOf (hr : r ∈ cycleTable) (hq : q ∈ cycleTable) (hne : r ≠ q) :
    Disjoint (cycleOf r) (cycleOf q) := by
  refine Finset.disjoint_left.mpr fun x hxr hxq => hne ?_
  obtain ⟨k, hk⟩ := mem_cycleOf hxr
  obtain ⟨j, hj⟩ := mem_cycleOf hxq
  exact eq_of_stepN_eq hr hq (BitVec.toFin_inj.mp (hk.trans hj.symm))

/-- The lengths add up to 512, so the cycles cover all states. -/
theorem biUnion_cycleOf : cycleTable.toFinset.biUnion cycleOf = Finset.univ := by
  refine Finset.eq_univ_of_card _ ?_
  have hdisjoint : (cycleTable.toFinset : Set (Lfsr × Nat)).PairwiseDisjoint cycleOf := fun r hr q hq =>
    disjoint_cycleOf (List.mem_toFinset.mp hr) (List.mem_toFinset.mp hq)
  rw [Finset.card_biUnion hdisjoint, Finset.sum_congr rfl fun r hr => card_cycleOf (List.mem_toFinset.mp hr),
    List.sum_toFinset _ (by decide), Fintype.card_fin]
  decide

theorem exists_mem_cycleTable (v : Lfsr) : ∃ r ∈ cycleTable, ∃ k, stepN r.1 k = v := by
  have hv : v.toFin ∈ cycleTable.toFinset.biUnion cycleOf := by
    rw [biUnion_cycleOf]
    exact Finset.mem_univ _
  obtain ⟨r, hr, hv⟩ := Finset.mem_biUnion.mp hv
  obtain ⟨k, hk⟩ := mem_cycleOf hv
  exact ⟨r, List.mem_toFinset.mp hr, k, BitVec.toFin_inj.mp hk⟩

/-- Every cycle's length divides 105 (R69). -/
theorem isPeriodicPt_lfsrStep (v : Lfsr) : IsPeriodicPt lfsrStep 105 v := by
  obtain ⟨r, hr, k, rfl⟩ := exists_mem_cycleTable v
  obtain ⟨-, hdvd⟩ := cycleTable_length r hr
  rw [stepN_eq_iterate]
  exact ((isPeriodicPt_of_mem hr).trans_dvd hdvd).apply_iterate k

theorem stepN_mod_105 (v : Lfsr) (n : Nat) : stepN v (n % 105) = stepN v n := by
  simp only [stepN_eq_iterate, (isPeriodicPt_lfsrStep v).iterate_mod_apply]

end Sys2Proof.Machine
end

section
/-!
PROOF. The cycles of Step (R68, R69).
-/

namespace Sys2Proof.Machine

/-- Settles O12: the entries are checked, and their cycles are disjoint and cover the 512 states. -/
theorem stateCycles : Obligations.StateCycles := by
  refine ⟨fun r hr => ?_, fun v => ?_⟩
  · obtain ⟨hperiod, hleast⟩ := cycleTable_closes r hr
    exact ⟨hperiod, fun k hpos hlt => hleast k hlt hpos⟩
  · obtain ⟨r, hr, k, hk⟩ := exists_mem_cycleTable v
    exact ⟨r, hr, ⟨k, hk⟩, fun q hq ⟨j, hj⟩ => eq_of_stepN_eq hq hr (hj.trans hk.symm)⟩

/-- Settles O11: StepN by its recursion, and 105 is a period of every state. -/
theorem stepCountsRepeatAfter105 : Obligations.StepCountsRepeatAfter105 :=
  ⟨stepN_zero, stepN_succ, fun v n => (stepN_mod_105 v n).symm⟩

end Sys2Proof.Machine
end

section
/-!
SUPPORT. The digits of a byte as its bits, and a seed as a number (R8, R60, R61).
-/

namespace Sys2Proof.Machine

variable {i : Byte}

/-- All eight digits of a byte, leading zeros included. -/
def paddedDigits (i : Byte) : List Bool := (List.range 8).map fun k => i.getMsbD k

/-- Digit `7 - j` of the eight is bit `j`. -/
theorem paddedDigits_getElem? (i : Byte) {k j : Nat} (hk : k + j = 7) : (paddedDigits i)[k]? = some (i.getLsbD j) := by
  have hlt : k < 8 := by omega
  rw [paddedDigits, List.getElem?_map, List.getElem?_range hlt]
  simp [BitVec.getMsbD, hlt, show 7 - k = j by omega]

/-- `bitlen` counts the digits that are left when the leading zeros are dropped. -/
theorem paddedDigits_eq_append (i : Byte) :
    paddedDigits i = List.replicate (8 - bitlen i) false ++ binaryDigits i := by
  have happend : (paddedDigits i).takeWhile (fun d => !d) ++ binaryDigits i = paddedDigits i :=
    List.takeWhile_append_dropWhile
  have hzero : ∀ d ∈ (paddedDigits i).takeWhile (fun d => !d), d = false := fun d hd => by
    simpa using List.mem_takeWhile_imp hd
  have hlength := congrArg List.length happend
  rw [List.length_append, show (paddedDigits i).length = 8 from rfl] at hlength
  rw [bitlen, ← Nat.eq_sub_of_add_eq hlength, ← List.eq_replicate_of_mem hzero, happend]

/-- Digit `k` of `n` is bit `n - 1 - k`. -/
theorem binaryDigits_getElem? (i : Byte) {k : Nat} (hk : k < bitlen i) :
    (binaryDigits i)[k]? = some (i.getLsbD (bitlen i - 1 - k)) := by
  have hle := bitlen_le i
  rw [← paddedDigits_getElem? i (k := 8 - bitlen i + k) (by omega), paddedDigits_eq_append,
    List.getElem?_append_right (by simp), List.length_replicate, Nat.add_sub_cancel_left]

/-- The zeros that are dropped are the bits above the digits. -/
theorem getLsbD_of_bitlen_le {j : Nat} (hj : bitlen i ≤ j) : i.getLsbD j = false := by
  obtain h8 | h8 := Nat.lt_or_ge j 8
  · have hdigit := paddedDigits_getElem? i (k := 7 - j) (j := j) (by omega)
    have hlt : 7 - j < 8 - bitlen i := by omega
    rw [paddedDigits_eq_append, List.getElem?_append_left (by simpa using hlt), List.getElem?_replicate,
      if_pos hlt] at hdigit
    exact (Option.some.inj hdigit).symm
  · exact BitVec.getLsbD_of_ge i j h8

theorem bitlen_pos (hi : i ≠ 0) : 0 < bitlen i := by
  obtain ⟨ds, h⟩ := binaryDigits_eq_true_cons hi
  simp [bitlen, h]

/-- The first digit is 1. -/
theorem getLsbD_bitlen_sub_one (hi : i ≠ 0) : i.getLsbD (bitlen i - 1) = true := by
  obtain ⟨ds, h⟩ := binaryDigits_eq_true_cons hi
  have hdigit := binaryDigits_getElem? i (bitlen_pos hi)
  rw [h] at hdigit
  exact (Option.some.inj hdigit).symm

theorem two_pow_bitlen_sub_one_le (hi : i ≠ 0) : 2 ^ (bitlen i - 1) ≤ i.toNat :=
  Nat.ge_two_pow_of_testBit (getLsbD_bitlen_sub_one hi)

theorem toNat_lt_two_pow_bitlen (i : Byte) : i.toNat < 2 ^ bitlen i :=
  Nat.lt_pow_two_of_testBit _ fun _ hj => getLsbD_of_bitlen_le hj

/-- The two bounds determine the number of digits. -/
theorem bitlen_eq_of_bounds {n : Nat} (hle : 2 ^ n ≤ i.toNat) (hlt : i.toNat < 2 ^ (n + 1)) : bitlen i = n + 1 := by
  have hi : i ≠ 0 := by
    rintro rfl
    exact absurd hle (Nat.not_le.mpr (Nat.two_pow_pos n))
  have hpos := bitlen_pos hi
  have h1 : n < bitlen i := (Nat.pow_lt_pow_iff_right (by decide : 1 < 2)).mp (hle.trans_lt (toNat_lt_two_pow_bitlen i))
  have h2 : bitlen i - 1 < n + 1 :=
    (Nat.pow_lt_pow_iff_right (by decide : 1 < 2)).mp ((two_pow_bitlen_sub_one_le hi).trans_lt hlt)
  omega

theorem bitAt_seedBits (i : Byte) {k : Nat} (hk : k < 9) :
    bitAt (seedBits i) k = (decide (k < bitlen i) && i.getLsbD (bitlen i - 1 - k)) := by
  rw [seedBits, bitAt_ofDigits _ hk, List.getD_eq_getElem?_getD, List.getElem?_take_of_lt hk]
  by_cases h : k < bitlen i
  · rw [List.getElem?_append_left h, binaryDigits_getElem? i h]
    simp [h]
  · have hpad : (binaryDigits i).length ≤ k := Nat.le_of_not_lt h
    rw [List.getElem?_append_right hpad]
    have hlt : k - (binaryDigits i).length < 9 - bitlen i := Nat.sub_lt_sub_right hpad hk
    simp [h, hlt]

/-- The source's index counts from the most significant end (R5). -/
theorem bitAt_eq_testBit (v : Lfsr) {k : Nat} (hk : k < 9) : bitAt v k = v.toNat.testBit (8 - k) := by
  simp only [bitAt, BitVec.getMsbD, hk, decide_true, Bool.true_and]
  rfl

/-- Packed, a seed is its byte with the first digit moved up to the head (R60). -/
theorem toNat_seedBits (i : Byte) : (seedBits i).toNat = i.toNat <<< (9 - bitlen i) := by
  have hle := bitlen_le i
  refine Nat.eq_of_testBit_eq fun j => ?_
  rw [Nat.testBit_shiftLeft]
  obtain hj | hj := Nat.lt_or_ge j 9
  · have hbit := bitAt_eq_testBit (seedBits i) (by omega : 8 - j < 9)
    rw [bitAt_seedBits i (by omega : 8 - j < 9), show 8 - (8 - j) = j by omega] at hbit
    rw [← hbit]
    by_cases h : 9 - bitlen i ≤ j
    · have hlt : 8 - j < bitlen i := by omega
      have hidx : bitlen i - 1 - (8 - j) = j - (9 - bitlen i) := by omega
      simp only [h, hlt, hidx, decide_true, Bool.true_and]
      rfl
    · have hlt : ¬8 - j < bitlen i := by omega
      simp [h, hlt]
  · have hidx : bitlen i ≤ j - (9 - bitlen i) := by omega
    have hhigh : i.toNat.testBit (j - (9 - bitlen i)) = false := getLsbD_of_bitlen_le hidx
    rw [hhigh, Bool.and_false]
    exact BitVec.getLsbD_of_ge (seedBits i) j hj

/-- Packed, the states with head 1 and tail 0 (R61). -/
theorem head_tail_iff (v : Lfsr) :
    bitAt v 0 = true ∧ bitAt v 8 = false ↔ ∃ m, m < 128 ∧ v.toNat = 0x100 + 2 * m := by
  have hhead : bitAt v 0 = decide (0x100 ≤ v.toNat) := BitVec.msb_eq_decide v
  have htail : bitAt v 8 = decide (v.toNat % 2 = 1) :=
    (bitAt_eq_testBit v (by decide)).trans (Nat.testBit_zero _)
  have hlt := v.isLt
  rw [hhead, htail, decide_eq_true_iff, decide_eq_false_iff_not]
  constructor
  · rintro ⟨h1, h2⟩
    exact ⟨v.toNat / 2 - 128, by omega, by omega⟩
  · rintro ⟨m, hm, h⟩
    omega

/-- The byte with the same eight leading bits has no leading zero, so its seed is the state. -/
theorem exists_seedBits_eq {v : Lfsr} {m : Nat} (hm : m < 128) (hv : v.toNat = 0x100 + 2 * m) :
    ∃ i : Byte, i ≠ 0 ∧ seedBits i = v := by
  have hi : (BitVec.ofNat 8 (128 + m)).toNat = 128 + m := Nat.mod_eq_of_lt (by omega)
  refine ⟨BitVec.ofNat 8 (128 + m), fun h0 => ?_, BitVec.eq_of_toNat_eq ?_⟩
  · rw [h0] at hi
    simp at hi
    omega
  · have hlen : bitlen (BitVec.ofNat 8 (128 + m)) = 8 := bitlen_eq_of_bounds (n := 7) (by omega) (by omega)
    rw [toNat_seedBits, hlen, hi, hv, Nat.shiftLeft_eq]
    omega

/-- A byte with one trailing zero more has one digit more (R61). -/
theorem seedBits_two_mul (hi : i ≠ 0) (h : 2 * i.toNat ≤ 255) : seedBits (2 * i) = seedBits i := by
  have hpos := bitlen_pos hi
  have hdouble : (2 * i).toNat = 2 * i.toNat := by
    rw [BitVec.toNat_mul]
    exact Nat.mod_eq_of_lt (Nat.lt_succ_of_le h)
  have hlen : bitlen (2 * i) = bitlen i + 1 := by
    have hle := two_pow_bitlen_sub_one_le hi
    have hlt := toNat_lt_two_pow_bitlen i
    refine bitlen_eq_of_bounds ?_ ?_
    · calc 2 ^ bitlen i
        _ = 2 * 2 ^ (bitlen i - 1) := by rw [← Nat.pow_succ', Nat.succ_eq_add_one, Nat.sub_add_cancel hpos]
        _ ≤ (2 * i).toNat := by omega
    · rw [Nat.pow_succ]
      omega
  have hle := bitlen_le (2 * i)
  refine BitVec.eq_of_toNat_eq ?_
  rw [toNat_seedBits, toNat_seedBits, hlen, hdouble, show 9 - bitlen i = 9 - (bitlen i + 1) + 1 by omega,
    Nat.shiftLeft_eq, Nat.shiftLeft_eq, Nat.pow_succ]
  ring

end Sys2Proof.Machine
end

section
/-!
PROOF. SeedBits (R8, R60, R61).
-/

namespace Sys2Proof.Machine

/-- Settles O6: the digits are the bits below the first 1, and the padding zeros are the shift. -/
theorem seedBitsAreDigitsRightPadded : Obligations.SeedBitsAreDigitsRightPadded :=
  fun i hi => ⟨bitlen_pos hi, bitlen_le i, two_pow_bitlen_sub_one_le hi, toNat_lt_two_pow_bitlen i,
    fun _ hk => bitAt_seedBits i hk, toNat_seedBits i⟩

/-- Settles O7: the head and the tail of a seed as bits; every such state is the seed of its eight leading bits. -/
theorem seedShapes : Obligations.SeedShapes := by
  have hseed (v : Lfsr) : (∃ i : Byte, i ≠ 0 ∧ seedBits i = v) ↔ bitAt v 0 = true ∧ bitAt v 8 = false := by
    constructor
    · rintro ⟨i, hi, rfl⟩
      exact ⟨bitAt_seedBits_head hi, bitAt_seedBits_tail i⟩
    · rw [head_tail_iff]
      rintro ⟨m, hm, hv⟩
      exact exists_seedBits_eq hm hv
  exact ⟨hseed, fun v => (hseed v).trans (head_tail_iff v), fun _ hi h => seedBits_two_mul hi h,
    fun _ hi => seedBits_ne_zero hi⟩

end Sys2Proof.Machine
end

section
/-!
SUPPORT. The acceptance of INIT and of STEP on the path that writes `S` (R62, R66, R96).
-/

namespace Sys2Proof.Machine

theorem execInit_of_ne_zero {i : Byte} (hi : i ≠ 0) (s : State) :
    execInit i s = .next ((s.consumeCommand.seedLoad i).enterPhase .idle) :=
  if_neg (by simpa [isUnset] using hi)

theorem execStep_of_seeded {s : State} {v : Lfsr} (hs : s.seeded = true) (hv : s.lfsr = some v) :
    execStep s = .next ((s.consumeCommand.setLfsr (lfsrStep v)).enterPhase .idle) :=
  (requireSeeded_of_seeded hs).trans (readLfsr_of_some hv)

end Sys2Proof.Machine
end

section
/-!
PROOF. What the commands write and what they leave (R62, R66, R79, R80, R81, R96, R113).
-/

namespace Sys2Proof.Machine

/-- Settles O20: a non-zero operand is loaded with the acceptance; 0 is "unset". -/
theorem initLoadsSeedOrEntersRedraw : Obligations.InitLoadsSeedOrEntersRedraw :=
  ⟨fun _ s hi => execInit_of_ne_zero hi s, fun _ => rfl⟩

/-- Settles O21: the acceptance of STEP, and its fields; no seed is ever stepped to zero. -/
theorem stepCommandAdvancesState : Obligations.StepCommandAdvancesState := by
  refine ⟨fun s v hs hv => execStep_of_seeded hs hv, fun s hs => requireSeeded_of_not_seeded hs, rfl, fun m hm => ?_,
    by decide, fun _ n hi => stepN_ne_zero (seedBits_ne_zero hi) n, by decide⟩
  have hword : wordOf ⟨1, m⟩ = 0x100 ||| m.zeroExtend 11 := wordOf_eq_or ⟨1, m⟩
  rw [← hword, decode_eq_reserved_iff, fieldsOf_wordOf]
  exact ⟨rfl, hm⟩

/-- Settles O25: each answer of each command is a chain of named updates, which leave every other field. -/
theorem commandFrames : Obligations.CommandFrames := by
  intro i s t h
  cases i with
  | init b => obtain ⟨rfl, rfl⟩ | ⟨hb, rfl⟩ := execInit_next h <;> simp [State.ptRead]
  | step => obtain ⟨v, hs, hv, rfl⟩ | ⟨hs, rfl⟩ := execStep_next h <;> simp [State.ptRead, hs]
  | adv => obtain ⟨hs, rfl⟩ | ⟨hs, rfl⟩ := execAdv_next h <;> simp [State.ptRead, hs]
  | encb p =>
    obtain ⟨v, hs, hv, hc, rfl⟩ | ⟨hs, hc, rfl⟩ | ⟨hs, rfl⟩ := execEncb_next h <;> simp [State.ptRead, hs]
  | run =>
    obtain rfl := execRun_next h
    simp [State.ptRead]

end Sys2Proof.Machine
end

section
/-!
SUPPORT. Runs of a busy core, counted: the redraw loop (R63, R97), the count-down (R98, R99).
-/

namespace Sys2Proof.Machine

/-- `n` steps lead from `s` to `t`, and the core is busy before each of them. -/
inductive BusyRun : Nat → State → State → Prop where
  | refl (s : State) : BusyRun 0 s s
  | step {n : Nat} {s t u : State} (hb : s.busy = true) (hs : Machine.step s = .next t) (h : BusyRun n t u) :
      BusyRun (n + 1) s u

variable {m n : Nat} {s t u : State} {v : Lfsr}

theorem BusyRun.single (hb : s.busy = true) (hs : Machine.step s = .next t) : BusyRun 1 s t :=
  .step hb hs (.refl t)

theorem BusyRun.trans (h : BusyRun m s t) (h' : BusyRun n t u) : BusyRun (m + n) s u := by
  induction h with
  | refl => simpa using h'
  | step hb hs _ ih =>
    rw [Nat.succ_add]
    exact .step hb hs (ih h')

theorem BusyRun.runSteps_eq (h : BusyRun n s t) : runSteps n s = .next t := by
  induction h with
  | refl => rfl
  | step _ hs _ ih => rw [runSteps_succ_of_next _ hs, ih]

theorem BusyRun.busy_of_lt (h : BusyRun n s t) (hm : m < n) : ∃ u, runSteps m s = .next u ∧ u.busy = true := by
  induction h generalizing m with
  | refl => exact absurd hm (Nat.not_lt_zero m)
  | step hb hs _ ih =>
    cases m with
    | zero => exact ⟨_, rfl, hb⟩
    | succ m =>
      rw [runSteps_succ_of_next m hs]
      exact ih (Nat.lt_of_succ_lt_succ hm)

theorem busy_of_ph {p : Phase} (hp : s.ph = p) (hb : phaseBusy p = true) : s.busy = true := by
  rw [State.busy, hp, hb]

theorem State.enterPhase_of_ph {p : Phase} (hp : s.ph = p) : s.enterPhase p = s := by
  rw [← hp]
  rfl

theorem State.enterPhase_enterPhase (s : State) (p q : Phase) : (s.enterPhase p).enterPhase q = s.enterPhase q := rfl

/-! Draws of the redraw loop. -/

theorem step_of_zero_drawn (hr : s.rst = false) (hp : s.ph = .seedw) (hd : s.offeredRandom = some 0) :
    step s = .next s.consumeRandom :=
  (step_seedw hr hp).trans (whenRandomOffered_of_some hd)

theorem step_of_seed_drawn {r : Byte} (hr : s.rst = false) (hp : s.ph = .seedw) (h0 : r ≠ 0)
    (hd : s.offeredRandom = some r) :
    step s = .next ((s.consumeRandom.seedLoad r).enterPhase (if s.runm then .cntw else .idle)) := by
  rw [step_seedw hr hp, seedDraw, whenRandomOffered_of_some hd, if_neg h0]

theorem step_of_seedw_wait (hr : s.rst = false) (hp : s.ph = .seedw) (hd : s.offeredRandom = none) :
    step s = .next s :=
  (step_seedw hr hp).trans (whenRandomOffered_of_none hd)

theorem runSteps_of_step_self (h : step s = .next s) (n : Nat) : runSteps n s = .next s := by
  induction n with
  | zero => rfl
  | succ n ih => rw [runSteps_succ_of_next n h, ih]

/-- The state after `j` draws that change nothing else. -/
theorem consumeRandom_withRp (s : State) (j : Nat) :
    ({ s.consumeRandom with rp := s.consumeRandom.rp + j } : State) = { s with rp := s.rp + (j + 1) } := by
  rw [State.consumeRandom_rp, Nat.add_right_comm]
  rfl

/-- Zeros on the tape are drawn and rejected one by one (R63). -/
theorem busyRun_zero_draws {j : Nat} (hr : s.rst = false) (hp : s.ph = .seedw)
    (htape : List.replicate j 0 <+: s.tapeAhead) : BusyRun j s { s with rp := s.rp + j } := by
  induction j generalizing s with
  | zero => exact .refl s
  | succ j ih =>
    obtain ⟨rest, hrest⟩ := htape
    have hd : s.offeredRandom = some 0 := by rw [offeredRandom_eq_head?, ← hrest]; rfl
    have htail : List.replicate j 0 <+: s.consumeRandom.tapeAhead :=
      ⟨rest, by rw [consumeRandom_tapeAhead, ← hrest]; rfl⟩
    have hloop := ih (s := s.consumeRandom) hr hp htail
    rw [consumeRandom_withRp] at hloop
    exact .step (busy_of_ph hp rfl) (step_of_zero_drawn hr hp hd) hloop

/-- After the zeros the first other byte is the seed byte (R63, R97). -/
theorem busyRun_seed_draws {j : Nat} {b : Byte} (hr : s.rst = false) (hp : s.ph = .seedw) (hb : b ≠ 0)
    (htape : List.replicate j 0 ++ [b] <+: s.tapeAhead) :
    BusyRun (j + 1) s
      ((({ s with rp := s.rp + (j + 1) } : State).seedLoad b).enterPhase (if s.runm then .cntw else .idle)) := by
  have hzeros := busyRun_zero_draws hr hp ((List.prefix_append _ _).trans htape)
  have hd : ({ s with rp := s.rp + j } : State).offeredRandom = some b := by
    obtain ⟨rest, hrest⟩ := htape
    calc s.rnd[s.rp + j]?
      _ = s.tapeAhead[j]? := List.getElem?_drop.symm
      _ = some b := by rw [← hrest]; simp
  exact hzeros.trans (.single (busy_of_ph hp rfl) (step_of_seed_drawn (s := { s with rp := s.rp + j }) hr hp hb hd))

/-- The count-down takes exactly `CNT` steps (R13, R99). -/
theorem busyRun_countdown (hr : s.rst = false) (hp : s.ph = .steps) (hv : s.lfsr = some v) :
    BusyRun s.cnt.toNat s ((s.setLfsr (stepN v s.cnt.toNat)).setCnt 0) := by
  generalize hn : s.cnt.toNat = n
  induction n generalizing s v with
  | zero =>
    have hcnt : s.cnt = 0 := BitVec.eq_of_toNat_eq hn
    have hend : (s.setLfsr (stepN v 0)).setCnt 0 = s := by
      rw [stepN_zero, State.setLfsr, ← hv, ← hcnt]
      rfl
    rw [hend]
    exact .refl s
  | succ n ih =>
    have hcnt : s.cnt ≠ 0 := by
      intro h0
      simp [h0] at hn
    have hstep : step s = .next ((s.setLfsr (lfsrStep v)).setCnt (s.cnt - 1)) := by
      rw [step_steps hr hp, stepOrLeave, if_pos hcnt, readLfsr_of_some hv]
    have hrest := ih (s := (s.setLfsr (lfsrStep v)).setCnt (s.cnt - 1)) (v := lfsrStep v) hr hp rfl
      (by rw [State.setCnt_cnt]; bv_omega)
    rw [stepN_step] at hrest
    exact .step (busy_of_ph hp rfl) hstep hrest

end Sys2Proof.Machine
end

section
/-!
PROOF. `INIT 0` (R62, R63).
-/

namespace Sys2Proof.Machine

/-- In `SEEDW` on a tape of zeros the core draws what is offered and then waits, busy throughout (R63, R117). -/
theorem runSteps_zero_tape {s : State} (hr : s.rst = false) (hp : s.ph = .seedw) (hzero : ∀ b ∈ s.tapeAhead, b = 0)
    (n : Nat) : runSteps n s = .next { s with rp := s.rp + min n s.tapeAhead.length } := by
  have hdraws (k : Nat) (hk : k ≤ s.tapeAhead.length) : runSteps k s = .next { s with rp := s.rp + k } := by
    refine (busyRun_zero_draws hr hp ?_).runSteps_eq
    rw [List.eq_replicate_of_mem hzero]
    exact ⟨_, by rw [List.replicate_append_replicate, Nat.add_sub_cancel' hk]⟩
  obtain hn | hn := Nat.le_total n s.tapeAhead.length
  · rw [Nat.min_eq_left hn, hdraws n hn]
  · have hnone : ({ s with rp := s.rp + s.tapeAhead.length } : State).offeredRandom = none := by
      have hlength : s.tapeAhead.length = s.rnd.length - s.rp := List.length_drop
      exact List.getElem?_eq_none (by show s.rnd.length ≤ s.rp + s.tapeAhead.length; omega)
    obtain ⟨k, rfl⟩ := Nat.exists_eq_add_of_le hn
    rw [Nat.min_eq_right hn, runSteps_add k (hdraws _ le_rfl)]
    exact runSteps_of_step_self (step_of_seedw_wait (s := { s with rp := s.rp + s.tapeAhead.length }) hr hp hnone) k

/-- Settles O49: the acceptance, the draws of the zeros and the seed draw; a tape of zeros is drawn to its end. -/
theorem initUnsetRedrawsUntilNonzero : Obligations.InitUnsetRedrawsUntilNonzero := by
  refine ⟨fun s j v ho hm hv htape => ?_, fun s n hr hp hzero hn => ?_, fun s n hr hp hzero => ?_⟩
  · have ⟨hr, hp, _⟩ := ho
    have hdraws := busyRun_seed_draws (s := s.consumeCommand.enterPhase .seedw) hr rfl hv htape
    rw [runSteps_succ_of_next (j + 1) (step_of_offered ho), hdraws.runSteps_eq]
    simp only [State.enterPhase_runm, State.consumeCommand_runm, hm, Bool.false_eq_true, if_false]
    rw [← hp]
    rfl
  · rw [runSteps_zero_tape hr hp hzero, Nat.min_eq_left hn]
  · exact ⟨_, Nat.le_add_right _ _, runSteps_zero_tape hr hp hzero n, busy_of_ph hp rfl⟩

end Sys2Proof.Machine
end

section
/-!
SUPPORT. The parts of a longer command, each against its rule: the redraw loop (R63), the advance (R80), the loop over the
plaintext (R81).
-/

namespace Sys2Proof.Machine

variable {s t : State}

/-- The redraw loop finds the first non-zero byte of the tape. -/
theorem exists_zeros_of_redraw {tape : List Byte} {b : Byte} {n : Nat} (h : redraw tape = some (b, n)) :
    ∃ j, n = j + 1 ∧ b ≠ 0 ∧ List.replicate j 0 ++ [b] <+: tape := by
  induction tape generalizing n with
  | nil => cases h
  | cons a rest ih =>
    by_cases ha : a = 0
    · rw [redraw, if_pos ha, Option.map_eq_some_iff] at h
      obtain ⟨⟨b', n'⟩, hloop, h⟩ := h
      cases h
      obtain ⟨j, rfl, hb, hzeros⟩ := ih hloop
      exact ⟨j + 1, rfl, hb, by rw [ha]; exact (List.prefix_cons_inj 0).mpr hzeros⟩
    · rw [redraw, if_neg ha] at h
      cases h
      exact ⟨0, rfl, ha, rest, rfl⟩

theorem procInit_zero_eq_some (h : procInit 0 s = some t) :
    ∃ j b, b ≠ 0 ∧ List.replicate j 0 ++ [b] <+: s.tapeAhead ∧
      t = ({ s with rp := s.rp + (j + 1) } : State).seedLoad b := by
  obtain ⟨⟨b, n⟩, hloop, rfl⟩ := Option.map_eq_some_iff.mp ((if_pos rfl).symm.trans h)
  obtain ⟨j, rfl, hb, htape⟩ := exists_zeros_of_redraw hloop
  exact ⟨j, b, hb, htape, rfl⟩

theorem procAdvance_eq_some (h : procAdvance s = some t) :
    ∃ v b, s.lfsr = some v ∧ s.offeredRandom = some b ∧
      t = (s.consumeRandom.setLfsr (stepN v b.toNat)).setCnt 0 := by
  unfold procAdvance at h
  split at h
  · next v b rest hv htape =>
    cases h
    exact ⟨v, b, hv, by rw [offeredRandom_eq_head?, htape]; rfl, rfl⟩
  · cases h

theorem procEncByte_eq_some {p : Byte} (h : procEncByte p s = some t) :
    ∃ v, s.lfsr = some v ∧ t = s.emit (encrypted p v) := by
  obtain ⟨v, hv, rfl⟩ := Option.map_eq_some_iff.mp h
  exact ⟨v, hv, rfl⟩

/-- The redraw loop of `SEEDW` loads the seed that the rule of INIT finds (R62, R97). -/
theorem busyRun_procInit_zero (hr : s.rst = false) (h : procInit 0 s = some t) :
    ∃ n, BusyRun n (s.enterPhase .seedw) (t.enterPhase (if s.runm then .cntw else .idle)) := by
  obtain ⟨j, b, hb, htape, rfl⟩ := procInit_zero_eq_some h
  exact ⟨j + 1, busyRun_seed_draws (s := s.enterPhase .seedw) hr rfl hb htape⟩

/-- The count draw and the count-down do the advance of the rule (R80, R98, R99). -/
theorem busyRun_procAdvance (hr : s.rst = false) (h : procAdvance s = some t) :
    ∃ n, BusyRun n (s.enterPhase .cntw) (t.enterPhase .steps) := by
  obtain ⟨v, b, hv, hd, rfl⟩ := procAdvance_eq_some h
  have hdraw : step (s.enterPhase .cntw) = .next ((s.consumeRandom.setCnt b).enterPhase .steps) :=
    (step_cntw (s := s.enterPhase .cntw) hr rfl).trans (whenRandomOffered_of_some hd)
  exact ⟨_, .step rfl hdraw (busyRun_countdown (s := (s.consumeRandom.setCnt b).enterPhase .steps) hr rfl hv)⟩

/-! Which way `STEPS` is left once the count is used up (R99). -/

theorem step_of_adv_done (hr : s.rst = false) (hp : s.ph = .steps) (hn : s.cnt = 0) (hm : s.runm = false) :
    step s = .next (s.enterPhase .idle) := by
  simp [step_steps hr hp, stepOrLeave, hn, hm]

theorem step_of_next_byte (hr : s.rst = false) (hp : s.ph = .steps) (hn : s.cnt = 0) (hm : s.runm = true)
    (hi : s.idx < s.pt.length) : step s = .next (s.enterPhase .enc) := by
  simp [step_steps hr hp, stepOrLeave, hn, hm, hi]

theorem step_of_run_done (hr : s.rst = false) (hp : s.ph = .steps) (hn : s.cnt = 0) (hm : s.runm = true)
    (hi : s.pt.length ≤ s.idx) : step s = .next (s.endRun.enterPhase .idle) := by
  simp [step_steps hr hp, stepOrLeave, hn, hm, Nat.not_lt.mpr hi]

theorem step_of_encrypt {p : Byte} {v : Lfsr} (hr : s.rst = false) (hp : s.ph = .enc) (hb : s.ptRead s.idx = some p)
    (hv : s.lfsr = some v) (hc : s.ctReady = true) :
    step s = .next ((s.emit (encrypted p v)).bumpIdx.enterPhase .cntw) := by
  simp [step_enc hr hp, encryptByte, hb, readLfsr_of_some hv, State.whenConsumerReady, hc]

/-- What the rule of RUN keeps from its beginning to its end, where the phase stays `IDLE`. -/
structure InRun (s : State) : Prop where
  noReset : s.rst = false
  ready : s.ctReady = true
  ph : s.ph = .idle
  runm : s.runm = true
  cnt : s.cnt = 0

theorem InRun.procInit_zero (hs : InRun s) (h : procInit 0 s = some t) : InRun t ∧ t.idx = s.idx := by
  obtain ⟨_, _, -, -, rfl⟩ := procInit_zero_eq_some h
  exact ⟨{ hs with }, rfl⟩

theorem InRun.procAdvance (hs : InRun s) (h : procAdvance s = some t) : InRun t ∧ t.idx = s.idx ∧ t.pt = s.pt := by
  obtain ⟨_, _, -, -, rfl⟩ := procAdvance_eq_some h
  exact ⟨{ hs with cnt := rfl }, rfl, rfl⟩

/-- From `STEPS` with nothing to count, the loop encrypts the plaintext from `IDX` on and ends the RUN (R81, R99, R100). -/
theorem InRun.busyRun_procBytes {ps : List Byte} (hs : InRun s) (hps : s.pt.drop s.idx = ps)
    (h : procBytes ps s = some t) : InRun t ∧ ∃ n, BusyRun n (s.enterPhase .steps) (t.endRun.enterPhase .idle) := by
  induction ps generalizing s with
  | nil =>
    obtain rfl := Option.some.inj h
    have hdone := step_of_run_done (s := s.enterPhase .steps) hs.noReset rfl hs.cnt hs.runm
      (List.drop_eq_nil_iff.mp hps)
    exact ⟨hs, 1, .single rfl hdone⟩
  | cons p ps ih =>
    obtain ⟨s1, henc, hafter⟩ := Option.bind_eq_some_iff.mp h
    obtain ⟨s2, hadv, hrest⟩ := Option.bind_eq_some_iff.mp hafter
    obtain ⟨v, hv, rfl⟩ := procEncByte_eq_some henc
    have hlt : s.idx < s.pt.length := by
      by_contra hge
      simp [List.drop_eq_nil_of_le (Nat.le_of_not_lt hge)] at hps
    rw [List.drop_eq_getElem_cons hlt] at hps
    obtain ⟨rfl, rfl⟩ := List.cons_eq_cons.mp hps
    have hnext := step_of_next_byte (s := s.enterPhase .steps) hs.noReset rfl hs.cnt hs.runm hlt
    have hpush := step_of_encrypt (s := s.enterPhase .enc) hs.noReset rfl (List.getElem?_eq_getElem hlt) hv hs.ready
    have hpushed : InRun (s.emit (encrypted s.pt[s.idx] v)).bumpIdx := { hs with }
    obtain ⟨n, hadvance⟩ := busyRun_procAdvance hpushed.noReset hadv
    obtain ⟨hs2, hidx, hpt⟩ := hpushed.procAdvance hadv
    obtain ⟨ht, m, hloop⟩ := ih hs2 (by rw [hidx, hpt]; rfl) hrest
    exact ⟨ht, _, .step rfl hnext (.step rfl hpush (hadvance.trans hloop))⟩

/-- From its acceptance in `s` the command runs to its end in `t`, and the core is busy in between. -/
def Completes (s t : State) : Prop :=
  ∃ n, 0 < n ∧ runSteps n s = .next t ∧ t.busy = false ∧
    ∀ m, 0 < m → m < n → ∃ u, runSteps m s = .next u ∧ u.busy = true

theorem completes_of_busyRun {u : State} {n : Nat} (hs : step s = .next u) (hrun : BusyRun n u t)
    (ht : t.busy = false) : Completes s t := by
  refine ⟨n + 1, n.succ_pos, by rw [runSteps_succ_of_next n hs, hrun.runSteps_eq], ht, fun m hpos hlt => ?_⟩
  obtain ⟨m, rfl⟩ := Nat.exists_eq_succ_of_ne_zero (Nat.ne_of_gt hpos)
  rw [runSteps_succ_of_next m hs]
  exact hrun.busy_of_lt (Nat.lt_of_succ_lt_succ hlt)

theorem completes_of_step (hs : step s = .next t) (ht : t.busy = false) : Completes s t :=
  completes_of_busyRun hs (.refl t) ht

theorem busy_eq_false_of_idle (hp : s.ph = .idle) : s.busy = false := by
  rw [State.busy, hp]
  rfl

/-- A command that needs a seed completes with its fault on an unseeded core (R110, R112). -/
theorem completes_procSeeded {go : Option State} {act : Result} (hstep : step s = s.requireSeeded act)
    (h : procSeeded s.consumeCommand go = some t) (hgo : s.seeded = true → step s = act → go = some t → Completes s t) :
    Completes s t := by
  cases hs : s.seeded with
  | true =>
    exact hgo hs (hstep.trans (requireSeeded_of_seeded hs)) ((if_pos hs).symm.trans h)
  | false =>
    have hfault : s.consumeCommand.raiseFault .notSeeded = t := by simpa [procSeeded, hs] using h
    rw [← hfault]
    exact completes_of_step (hstep.trans (requireSeeded_of_not_seeded hs)) rfl

end Sys2Proof.Machine
end

section
/-!
PROOF. The machine agrees with the command rules (R62, R66, R79, R80, R81, R102).
-/

namespace Sys2Proof.Machine

variable {s t : State}

theorem completes_init {i : Byte} (ho : s.Offered (.init i)) (hm : s.runm = false)
    (h : commandRule (.init i) s = some t) : Completes s t := by
  have ⟨hr, hp, _⟩ := ho
  have hstep := step_of_offered ho
  by_cases hi : i = 0
  · subst hi
    obtain ⟨n, hrun⟩ := busyRun_procInit_zero (s := s.consumeCommand) hr h
    have htp : t.ph = .idle := by
      obtain ⟨_, _, -, -, rfl⟩ := procInit_zero_eq_some h
      exact hp
    rw [State.consumeCommand_runm, hm, if_neg Bool.false_ne_true, State.enterPhase_of_ph htp] at hrun
    exact completes_of_busyRun hstep hrun (busy_eq_false_of_idle htp)
  · obtain rfl : s.consumeCommand.seedLoad i = t := Option.some.inj ((if_neg hi).symm.trans h)
    rw [exec, execInit_of_ne_zero hi, State.enterPhase_of_ph (by exact hp)] at hstep
    exact completes_of_step hstep (busy_eq_false_of_idle hp)

theorem completes_step (ho : s.Offered .step) (h : commandRule .step s = some t) : Completes s t := by
  have ⟨_, hp, _⟩ := ho
  refine completes_procSeeded (step_of_offered ho) h fun hs hstep hgo => ?_
  obtain ⟨v, hv, rfl⟩ := Option.map_eq_some_iff.mp hgo
  rw [readLfsr_of_some hv, State.enterPhase_of_ph (by exact hp)] at hstep
  exact completes_of_step hstep (busy_eq_false_of_idle hp)

theorem completes_adv (ho : s.Offered .adv) (hm : s.runm = false) (h : commandRule .adv s = some t) :
    Completes s t := by
  have ⟨hr, hp, _⟩ := ho
  refine completes_procSeeded (step_of_offered ho) h fun hs hstep hgo => ?_
  obtain ⟨n, hrun⟩ := busyRun_procAdvance (s := s.consumeCommand) hr hgo
  obtain ⟨htr, htp, htm, htn⟩ : t.rst = false ∧ t.ph = .idle ∧ t.runm = false ∧ t.cnt = 0 := by
    obtain ⟨_, _, -, -, rfl⟩ := procAdvance_eq_some hgo
    exact ⟨hr, hp, hm, rfl⟩
  have hdone := step_of_adv_done (s := t.enterPhase .steps) htr rfl htn htm
  rw [State.enterPhase_enterPhase, State.enterPhase_of_ph htp] at hdone
  exact completes_of_busyRun hstep (hrun.trans (.single rfl hdone)) (busy_eq_false_of_idle htp)

theorem completes_encb {p : Byte} (ho : s.Offered (.encb p)) (hc : s.ctReady = true)
    (h : commandRule (.encb p) s = some t) : Completes s t := by
  have ⟨_, hp, _⟩ := ho
  refine completes_procSeeded (step_of_offered ho) h fun hs hstep hgo => ?_
  obtain ⟨v, hv, rfl⟩ := procEncByte_eq_some hgo
  rw [readLfsr_of_some (by exact hv), State.whenConsumerReady, if_pos hc, State.enterPhase_of_ph (by exact hp)] at hstep
  exact completes_of_step hstep (busy_eq_false_of_idle hp)

theorem completes_run (ho : s.Offered .run) (hn : s.cnt = 0) (hc : s.ctReady = true) (h : commandRule .run s = some t) :
    Completes s t := by
  have ⟨hr, hp, _⟩ := ho
  obtain ⟨s1, hinit, h⟩ := Option.bind_eq_some_iff.mp h
  obtain ⟨s2, hadv, h⟩ := Option.bind_eq_some_iff.mp h
  obtain ⟨s3, hbytes, rfl⟩ := Option.map_eq_some_iff.mp h
  have hbegin : InRun s.consumeCommand.beginRun := ⟨hr, hc, hp, rfl, hn⟩
  obtain ⟨hs1, hidx1⟩ := hbegin.procInit_zero hinit
  obtain ⟨hs2, hidx2, -⟩ := hs1.procAdvance hadv
  obtain ⟨n1, hseed⟩ := busyRun_procInit_zero hbegin.noReset hinit
  obtain ⟨n2, hburn⟩ := busyRun_procAdvance hs1.noReset hadv
  obtain ⟨hs3, n3, hloop⟩ := hs2.busyRun_procBytes (by rw [hidx2, hidx1]; rfl) hbytes
  rw [State.enterPhase_of_ph (p := .idle) (by exact hs3.ph)] at hloop
  exact completes_of_busyRun (step_of_offered ho) (hseed.trans (hburn.trans hloop)) (busy_eq_false_of_idle hs3.ph)

/-- Settles O54: each command against its rule; the invariant says that no RUN is in progress and nothing is counted. -/
theorem sequencerFollowsCommandRules : Obligations.SequencerFollowsCommandRules := by
  intro i s t hinv ho hc h
  obtain ⟨-, -, -, hphase, -⟩ := hinv
  obtain ⟨hm, hn⟩ := hphase.of_offered ho
  cases i with
  | init i => exact completes_init ho hm h
  | step => exact completes_step ho h
  | adv => exact completes_adv ho hm h
  | encb p => exact completes_encb ho hc h
  | run => exact completes_run ho hn hc h

end Sys2Proof.Machine
end

section
/-!
SUPPORT. A RUN in progress, from its acceptance to its end (R81, R83): it has pushed as many bytes as `IDX` says.
-/

namespace Sys2Proof.Machine

variable {s t u : State}

/-- What holds of `u` inside the RUN that was accepted in `s`. -/
structure InsideRun (s u : State) : Prop where
  noReset : u.rst = false
  busy : u.busy = true
  runm : u.runm = true
  pt : u.pt = s.pt
  idx_le : u.idx ≤ s.pt.length
  pushed : u.ct.length = s.ct.length + u.idx

/-- What holds of `t` at the end of the RUN that was accepted in `s`. -/
structure AfterRun (s t : State) : Prop where
  ph : t.ph = .idle
  runm : t.runm = false
  pt : t.pt = s.pt
  idx : t.idx = s.pt.length
  pushed : t.ct.length = s.ct.length + s.pt.length

theorem insideRun_of_accepted (hr : s.rst = false) : InsideRun s (s.consumeCommand.beginRun.enterPhase .seedw) :=
  ⟨hr, rfl, rfl, rfl, Nat.zero_le _, rfl⟩

/-- In a busy phase no command is accepted. -/
theorem InsideRun.not_idle (h : InsideRun s u) : u.ph ≠ .idle :=
  fun hp => Bool.false_ne_true ((busy_eq_false_of_idle hp).symm.trans h.busy)

theorem InsideRun.not_offered {i : Instr} (h : InsideRun s u) : ¬ u.Offered i :=
  fun ⟨_, hp, _⟩ => h.not_idle hp

/-- A transition goes on with the RUN, or ends it when `IDX` has reached `L` (R99). -/
theorem InsideRun.transition (h : InsideRun s u) (ht : Transition u t) : InsideRun s t ∨ AfterRun s t := by
  cases ht with
  | reset hr => exact absurd (hr.symm.trans h.noReset) Bool.noConfusion
  | reservedFault _ _ hp => exact absurd hp h.not_idle
  | unseededFault _ ho | initLoad _ _ ho | initUnset ho | stepCommand _ ho | advCommand ho
  | encbCommand _ _ ho | runCommand ho => exact (h.not_offered ho).elim
  | wait | zeroSeedDraw | countedStep => exact .inl { h with }
  | seedDraw => exact .inl { h with busy := by simp [h.runm, phaseBusy] }
  | countDraw | nextByte => exact .inl { h with busy := rfl }
  | endAdv _ _ _ hm => exact absurd (hm.symm.trans h.runm) Bool.noConfusion
  | endRun _ _ _ _ hi =>
    have hidx : u.idx = s.pt.length := Nat.le_antisymm h.idx_le (h.pt ▸ hi)
    exact .inr ⟨rfl, rfl, h.pt, hidx, hidx ▸ h.pushed⟩
  | encryptByte p v _ _ hb =>
    have hlt : u.idx < s.pt.length := h.pt ▸ (List.getElem?_eq_some_iff.mp hb).1
    exact .inl { h with
      busy := rfl, idx_le := hlt, pushed := by simp [h.pushed, Nat.add_assoc] }

/-- The first state with `RUNM = 0` is the end of the RUN. -/
theorem InsideRun.afterRun_of_runSteps {n : Nat} (h : InsideRun s u) (hrun : runSteps n u = .next t) (ht : t.runm = false)
    (hfirst : ∀ m w, m < n → runSteps m u = .next w → w.runm = true) : AfterRun s t := by
  induction n generalizing u with
  | zero =>
    cases hrun
    exact absurd (ht.symm.trans h.runm) Bool.noConfusion
  | succ n ih =>
    obtain ⟨u', hstep, hrun⟩ := runSteps_succ_next hrun
    have hfirst' (m : Nat) (w : State) (hm : m < n) (hw : runSteps m u' = .next w) : w.runm = true :=
      hfirst (m + 1) w (Nat.succ_lt_succ hm) ((runSteps_succ_of_next m hstep).trans hw)
    obtain h' | hend := h.transition (transition_of_step hstep)
    · exact ih h' hrun hfirst'
    · cases n with
      | zero =>
        cases hrun
        exact hend
      | succ n => exact absurd (hend.runm.symm.trans (hfirst' 0 u' n.succ_pos rfl)) Bool.noConfusion

end Sys2Proof.Machine
end

section
/-!
PROOF. A RUN pushes one byte for each byte of the plaintext (R83).
-/

namespace Sys2Proof.Machine

/-- Settles O53: the core is inside the RUN from its acceptance on, until `RUNM` falls. -/
theorem runPushesOneBytePerPlaintextByte : Obligations.RunPushesOneBytePerPlaintextByte := by
  intro s t n ho hn hrun ht hfirst
  have ⟨hr, _, _⟩ := ho
  obtain ⟨n, rfl⟩ := Nat.exists_eq_succ_of_ne_zero (Nat.ne_of_gt hn)
  have haccept := step_of_offered ho
  rw [Nat.succ_eq_add_one, runSteps_succ_of_next n haccept] at hrun
  have hend := (insideRun_of_accepted hr).afterRun_of_runSteps hrun ht fun m w hm hw =>
    hfirst (m + 1) w m.succ_pos (Nat.succ_lt_succ hm) ((runSteps_succ_of_next m haccept).trans hw)
  exact ⟨hend.pushed, hend.idx, hend.ph, hend.pt⟩

end Sys2Proof.Machine
end

section
/-!
SUPPORT. An advance, counted: one draw and as many steps as the byte drawn says (R80, R98, R99).
-/

namespace Sys2Proof.Machine

variable {s : State} {v : Lfsr} {b : Byte}

/-- What the advance by a drawn byte `b` leaves of a core with `S = v` (R80). -/
def State.advanced (s : State) (v : Lfsr) (b : Byte) : State :=
  (s.consumeRandom.setLfsr (stepN v b.toNat)).setCnt 0

/-- From `CNTW` the draw and the count-down are `b + 1` transitions. -/
theorem busyRun_advance (hr : s.rst = false) (hv : s.lfsr = some v) (hd : s.offeredRandom = some b) :
    BusyRun (b.toNat + 1) (s.enterPhase .cntw) ((s.advanced v b).enterPhase .steps) := by
  have hdraw : step (s.enterPhase .cntw) = .next ((s.consumeRandom.setCnt b).enterPhase .steps) :=
    (step_cntw (s := s.enterPhase .cntw) hr rfl).trans (whenRandomOffered_of_some hd)
  exact .step rfl hdraw (busyRun_countdown (s := (s.consumeRandom.setCnt b).enterPhase .steps) hr rfl hv)

theorem step_of_adv_offered (ho : s.Offered .adv) (hs : s.seeded = true) :
    step s = .next (s.consumeCommand.enterPhase .cntw) :=
  (step_of_offered ho).trans (requireSeeded_of_seeded hs)

theorem decode_adv_operand {m : Byte} (hm : m ≠ 0) : decode (0x200 ||| m.zeroExtend 11) = .reserved .advOperand := by
  have hword : wordOf ⟨2, m⟩ = 0x200 ||| m.zeroExtend 11 := wordOf_eq_or ⟨2, m⟩
  rw [← hword, decode_eq_reserved_iff, fieldsOf_wordOf]
  exact ⟨rfl, hm⟩

/-- A count that 105 divides leaves `S` as it is (R69). -/
theorem stepN_eq_self_of_dvd {n : Nat} (hn : 105 ∣ n) : stepN v n = v := by
  rw [← stepN_mod_105, Nat.mod_eq_zero_of_dvd hn, stepN_zero]

end Sys2Proof.Machine
end

section
/-!
PROOF. ADV, its acceptance and the whole command (R80, R96, R113).
-/

namespace Sys2Proof.Machine

/-- Settles O23: a seeded core goes on to the draw, another takes the fault. -/
theorem advEntersCountDraw : Obligations.AdvEntersCountDraw :=
  ⟨fun _ hs => requireSeeded_of_seeded hs, fun _ hs => requireSeeded_of_not_seeded hs⟩

/-- Settles O50: the acceptance, the advance of `b + 1` transitions, and the one that leaves `STEPS`. -/
theorem advTakesDrawnNumberOfSteps : Obligations.AdvTakesDrawnNumberOfSteps := by
  refine ⟨fun s v b ho hm hs hv hd => ?_, fun s ho hs => (step_of_offered ho).trans (requireSeeded_of_not_seeded hs),
    rfl, fun _ hm => decode_adv_operand hm,
    fun _ => ⟨stepN_eq_self_of_dvd (by decide), stepN_eq_self_of_dvd (by decide)⟩, by decide⟩
  have ⟨hr, hp, _⟩ := ho
  have hadvance := busyRun_advance (s := s.consumeCommand) hr hv hd
  have hdone := step_of_adv_done (s := (s.consumeCommand.advanced v b).enterPhase .steps) hr rfl rfl hm
  rw [runSteps_succ_of_next _ (step_of_adv_offered ho hs), (hadvance.trans (.single rfl hdone)).runSteps_eq, ← hp]
  rfl

end Sys2Proof.Machine
end

section
/-!
SUPPORT. The closed form of the ciphertext (R82): byte by byte, along the plaintext, and applied twice (R84).
-/

namespace Sys2Proof.Machine

@[simp] theorem countSum_zero (bs : List Byte) : countSum bs 0 = 0 := rfl

@[simp] theorem countSum_cons_succ (b : Byte) (bs : List Byte) (k : Nat) :
    countSum (b :: bs) (k + 1) = b.toNat + countSum bs k := by
  simp [countSum]

/-- A count is at most 255. -/
theorem countSum_le (bs : List Byte) (k : Nat) : countSum bs k ≤ 255 * k := by
  induction k generalizing bs with
  | zero => exact Nat.zero_le _
  | succ k ih =>
    cases bs with
    | nil => simp [countSum]
    | cons b bs =>
      have hrest := ih bs
      rw [countSum_cons_succ]
      omega

/-- The last count of a list is in none of the sums over fewer counts. -/
theorem countSum_dropLast {bs : List Byte} {k : Nat} (hk : k < bs.length) : countSum bs.dropLast k = countSum bs k := by
  rw [countSum, List.dropLast_eq_take, List.take_take, Nat.min_eq_left (Nat.le_sub_one_of_lt hk), countSum]

@[simp] theorem length_ciphertextOf (seed : Lfsr) (b0 : Byte) (bs pt : List Byte) :
    (ciphertextOf seed b0 bs pt).length = pt.length := by
  simp [ciphertextOf]

theorem getElem?_ciphertextOf (seed : Lfsr) (b0 : Byte) (bs pt : List Byte) (k : Nat) :
    (ciphertextOf seed b0 bs pt)[k]? = pt[k]?.map fun p => encrypted p (stepN seed (b0.toNat + countSum bs k)) := by
  simp [ciphertextOf]

/-- The burn count may be taken into the seed. -/
theorem ciphertextOf_burnt (seed : Lfsr) (b0 : Byte) (bs pt : List Byte) :
    ciphertextOf seed b0 bs pt = ciphertextOf (stepN seed b0.toNat) 0 bs pt := by
  simp [ciphertextOf, stepN_add]

/-- The first byte is encrypted with the state as it is, and its count advances the state for the others. -/
theorem ciphertextOf_cons (v : Lfsr) (b p : Byte) (bs ps : List Byte) :
    ciphertextOf v 0 (b :: bs) (p :: ps) = encrypted p v :: ciphertextOf (stepN v b.toNat) 0 bs ps := by
  simp [ciphertextOf, List.mapIdx_cons, stepN_add]

theorem encrypted_encrypted (p : Byte) (v : Lfsr) : encrypted (encrypted p v) v = p := by
  rw [encrypted, encrypted, BitVec.xor_assoc, BitVec.xor_self, BitVec.xor_zero]

/-- The same keystream undoes itself; the last counts of the two lists are not in it. -/
theorem ciphertextOf_ciphertextOf {bs1 bs2 pt : List Byte} (seed : Lfsr) (b0 : Byte) (h1 : bs1.length = pt.length)
    (h2 : bs2.length = pt.length) (hbs : bs1.dropLast = bs2.dropLast) :
    ciphertextOf seed b0 bs2 (ciphertextOf seed b0 bs1 pt) = pt := by
  refine List.ext_getElem? fun k => ?_
  rw [getElem?_ciphertextOf, getElem?_ciphertextOf]
  cases hk : pt[k]? with
  | none => rfl
  | some p =>
    have hlt : k < pt.length := (List.getElem?_eq_some_iff.mp hk).1
    have hsum : countSum bs2 k = countSum bs1 k := by
      rw [← countSum_dropLast (h2 ▸ hlt), ← hbs, countSum_dropLast (h1 ▸ hlt)]
    rw [hsum, Option.map_some, Option.map_some, encrypted_encrypted]

end Sys2Proof.Machine
end

section
/-!
SUPPORT. A whole RUN, counted: the loop over the plaintext, and what comes before it (R81, R82, R104).
-/

namespace Sys2Proof.Machine

variable {s : State} {v : Lfsr} {b p : Byte} {bs ps : List Byte}

/-- What a RUN with `S = v` leaves once it has encrypted the bytes `ps` and advanced by the counts `bs` (R81). -/
def State.afterBytes (s : State) (v : Lfsr) (bs ps : List Byte) : State :=
  { s with
    lfsr := some (stepN v (countSum bs bs.length))
    out := (ciphertextOf v 0 bs ps).getLastD s.out
    cnt := 0
    idx := s.idx + ps.length
    rp := s.rp + ps.length
    ct := s.ct ++ ciphertextOf v 0 bs ps }

theorem State.afterBytes_nil (hv : s.lfsr = some v) (hn : s.cnt = 0) : s.afterBytes v [] [] = s := by
  simp [State.afterBytes, ciphertextOf, ← hv, ← hn]

/-- The bytes after the first are encrypted from the state that the first one and its advance leave. -/
theorem State.afterBytes_cons (s : State) (v : Lfsr) (b p : Byte) (bs ps : List Byte) :
    s.afterBytes v (b :: bs) (p :: ps) =
      ((s.emit (encrypted p v)).bumpIdx.advanced v b).afterBytes (stepN v b.toNat) bs ps := by
  rw [State.afterBytes, ciphertextOf_cons, List.length_cons, List.length_cons, countSum_cons_succ, stepN_add,
    List.getLastD_cons, List.append_cons, Nat.add_comm ps.length, ← Nat.add_assoc, ← Nat.add_assoc]
  rfl

/-- One byte of a RUN is `b + 3` transitions: out of `STEPS`, the encryption, and the advance (R99, R100). -/
theorem InRun.busyRun_byte (hs : InRun s) (hp : s.pt[s.idx]? = some p) (hv : s.lfsr = some v)
    (hd : s.offeredRandom = some b) :
    BusyRun (b.toNat + 3) (s.enterPhase .steps)
      (((s.emit (encrypted p v)).bumpIdx.advanced v b).enterPhase .steps) := by
  have hlt : s.idx < s.pt.length := (List.getElem?_eq_some_iff.mp hp).1
  have hnext := step_of_next_byte (s := s.enterPhase .steps) hs.noReset rfl hs.cnt hs.runm hlt
  have hpush := step_of_encrypt (s := s.enterPhase .enc) hs.noReset rfl hp hv hs.ready
  have hadvance := busyRun_advance (s := (s.emit (encrypted p v)).bumpIdx) hs.noReset hv hd
  exact .step rfl hnext (.step rfl hpush hadvance)

/-- The loop over the plaintext from `IDX` on, to the end of the RUN. -/
theorem InRun.busyRun_bytes (hs : InRun s) (hps : s.pt.drop s.idx = ps) (hlen : bs.length = ps.length)
    (hv : s.lfsr = some v) (htape : bs <+: s.tapeAhead) :
    BusyRun (countSum bs bs.length + 3 * bs.length + 1) (s.enterPhase .steps)
      ((s.afterBytes v bs ps).endRun.enterPhase .idle) := by
  induction ps generalizing s v bs with
  | nil =>
    obtain rfl := List.eq_nil_of_length_eq_zero hlen
    rw [State.afterBytes_nil hv hs.cnt]
    exact .single rfl (step_of_run_done (s := s.enterPhase .steps) hs.noReset rfl hs.cnt hs.runm
      (List.drop_eq_nil_iff.mp hps))
  | cons p ps ih =>
    obtain ⟨b, bs, rfl⟩ := List.exists_cons_of_length_eq_add_one hlen
    obtain ⟨rest, hrest⟩ := htape
    have hp : s.pt[s.idx]? = some p := by rw [← List.head?_drop, hps]; rfl
    have hd : s.offeredRandom = some b := by rw [offeredRandom_eq_head?, ← hrest]; rfl
    have hbyte := hs.busyRun_byte hp hv hd
    have hps' : s.pt.drop (s.idx + 1) = ps := by rw [← List.tail_drop, hps]; rfl
    have htape' : bs ++ rest = s.consumeRandom.tapeAhead := by rw [consumeRandom_tapeAhead, ← hrest]; rfl
    have hloop := ih (s := (s.emit (encrypted p v)).bumpIdx.advanced v b) { hs with cnt := rfl } hps'
      (Nat.succ.inj hlen) rfl ⟨rest, htape'⟩
    have hcount : countSum (b :: bs) (b :: bs).length + 3 * (b :: bs).length + 1 =
        b.toNat + 3 + (countSum bs bs.length + 3 * bs.length + 1) := by
      rw [List.length_cons, countSum_cons_succ]
      omega
    rw [hcount, State.afterBytes_cons]
    exact hbyte.trans hloop

end Sys2Proof.Machine
end

section
/-!
SUPPORT. What comes before the loop of a RUN: the seed and the burn (R81).
-/

namespace Sys2Proof.Machine

variable {s : State} {j : Nat} {v b0 : Byte} {bs : List Byte}

/-- What the redraw loop leaves of a core that has accepted a RUN, after `j` zeros and the seed byte `v` (R63, R81). -/
def State.runSeeded (s : State) (j : Nat) (v : Byte) : State :=
  ({ s.consumeCommand.beginRun with rp := s.rp + (j + 1) } : State).seedLoad v

theorem tapeAhead_runSeeded {tape : List Byte} (htape : List.replicate j 0 ++ v :: tape = s.tapeAhead) :
    (s.runSeeded j v).tapeAhead = tape :=
  calc s.rnd.drop (s.rp + (j + 1))
    _ = s.tapeAhead.drop (j + 1) := List.drop_drop.symm
    _ = tape := by simp [← htape, List.drop_append]

theorem busyRun_runSeeded (hr : s.rst = false) (hv : v ≠ 0) (htape : List.replicate j 0 ++ [v] <+: s.tapeAhead) :
    BusyRun (j + 1) (s.consumeCommand.beginRun.enterPhase .seedw) ((s.runSeeded j v).enterPhase .cntw) :=
  busyRun_seed_draws (s := s.consumeCommand.beginRun.enterPhase .seedw) hr rfl hv htape

/-- From the acceptance of a RUN to its end: the draws to the seed, the burn, and the loop over the plaintext. -/
theorem busyRun_run (hr : s.rst = false) (hp : s.ph = .idle) (hc : s.ctReady = true) (htape : s.TapeForRun j v b0 bs) :
    BusyRun (j + 1 + (b0.toNat + 1 + (countSum bs bs.length + 3 * bs.length + 1)))
      (s.consumeCommand.beginRun.enterPhase .seedw)
      ((((s.runSeeded j v).advanced (seedBits v) b0).afterBytes (stepN (seedBits v) b0.toNat) bs s.pt).endRun.enterPhase
        .idle) := by
  obtain ⟨hv, hlen, rest, htape⟩ := htape
  have hahead : (s.runSeeded j v).tapeAhead = b0 :: (bs ++ rest) := tapeAhead_runSeeded (by simp [← htape])
  have hd : (s.runSeeded j v).offeredRandom = some b0 := by rw [offeredRandom_eq_head?, hahead]; rfl
  have hcounts : bs ++ rest = (s.runSeeded j v).consumeRandom.tapeAhead := by rw [consumeRandom_tapeAhead, hahead]; rfl
  have hburnt : InRun ((s.runSeeded j v).advanced (seedBits v) b0) := ⟨hr, hc, hp, rfl, rfl⟩
  have hseed := busyRun_runSeeded (j := j) hr hv ⟨b0 :: (bs ++ rest), by simp [← htape]⟩
  have hburn := busyRun_advance (s := s.runSeeded j v) hr rfl hd
  have hloop := hburnt.busyRun_bytes rfl hlen rfl ⟨rest, hcounts⟩
  exact hseed.trans (hburn.trans hloop)

end Sys2Proof.Machine
end

section
/-!
PROOF. RUN, its acceptance and the whole command, its ciphertext, and the involution (R81, R82, R84, R96, R104).
-/

namespace Sys2Proof.Machine

/-- Settles O24: the acceptance of RUN asks for nothing. -/
theorem runEntersSeedDraw : Obligations.RunEntersSeedDraw := fun _ => rfl

/-- Settles O52: the closed form maps each byte of the plaintext with its index. -/
theorem ciphertextByteFormula : Obligations.CiphertextByteFormula := by
  intro seed b0 bs pt k p hp
  refine ⟨length_ciphertextOf seed b0 bs pt, ?_⟩
  rw [getElem?_ciphertextOf, hp]
  rfl

/-- Settles O51: the parts of the RUN are counted exactly, and no count is above 255. -/
theorem runEncryptsWholePlaintext : Obligations.RunEncryptsWholePlaintext := by
  intro s j v b0 bs ho hc htape
  have ⟨hr, hp, _⟩ := ho
  have ⟨_, hlen, _⟩ := htape
  have hrun := busyRun_run hr hp hc htape
  refine ⟨_, ?_, (runSteps_succ_of_next _ (step_of_offered ho)).trans (hrun.runSteps_eq.trans ?_)⟩
  · have hb0 := b0.isLt
    have hbs := countSum_le bs bs.length
    omega
  · rw [ciphertextOf_burnt, stepN_add, ← Nat.zero_add s.pt.length, ← hp, ← Nat.add_assoc, ← Nat.add_assoc]
    rfl

/-- Settles O56: both runs are as their closed forms say, and the second closed form undoes the first. -/
theorem encryptionIsAnInvolution : Obligations.EncryptionIsAnInvolution := by
  intro s1 s2 j1 j2 v1 v2 b0 bs1 bs2 ho1 ho2 hc1 hc2 htape1 htape2 hseed hbs
  have ⟨_, hlen1, _⟩ := htape1
  have ⟨_, hlen2, _⟩ := htape2
  obtain ⟨n1, -, hrun1⟩ := runEncryptsWholePlaintext s1 j1 v1 b0 bs1 ho1 hc1 htape1
  obtain ⟨n2, -, hrun2⟩ := runEncryptsWholePlaintext s2 j2 v2 b0 bs2 ho2 hc2 htape2
  refine ⟨n1, _, ciphertextOf (seedBits v1) b0 bs1 s1.pt, hrun1, rfl, rfl, rfl, length_ciphertextOf .., fun hpt => ?_⟩
  refine ⟨n2, _, hrun2, rfl, rfl, ?_⟩
  have hlen : bs2.length = s1.pt.length := by rw [hlen2, hpt, length_ciphertextOf]
  rw [hpt, ← hseed, ciphertextOf_ciphertextOf _ _ hlen1 hlen hbs]

end Sys2Proof.Machine
end

section
/-!
SUPPORT. The key: the magnitude as a weighted sum of bits (R75), the residue by cases (R76), and the byte `m` of the gate
form (R77).
-/

namespace Sys2Proof.Machine

variable {v : Lfsr}

/-! The magnitude. -/

theorem magnitude_eq_powers (v : Lfsr) :
    magnitude v = (2 * (bitAt v 1).toNat) ^ 0 + (2 * (bitAt v 2).toNat) ^ 1 + (2 * (bitAt v 3).toNat) ^ 2
      + (2 * (bitAt v 4).toNat) ^ 3 + (2 * (bitAt v 5).toNat) ^ 4 + (2 * (bitAt v 6).toNat) ^ 5
      + (2 * (bitAt v 7).toNat) ^ 6 + (2 * (bitAt v 8).toNat) ^ 7 := by
  simp [magnitude, List.range_succ, Nat.add_assoc]

/-- A power of a doubled bit is the bit at the power's weight. -/
theorem two_mul_toNat_pow_succ (b : Bool) (x : Nat) : (2 * b.toNat) ^ (x + 1) = 2 ^ (x + 1) * b.toNat := by
  cases b <;> simp

theorem magnitude_eq_weights (v : Lfsr) :
    magnitude v = 1 + 2 * (bitAt v 2).toNat + 4 * (bitAt v 3).toNat + 8 * (bitAt v 4).toNat + 16 * (bitAt v 5).toNat
      + 32 * (bitAt v 6).toNat + 64 * (bitAt v 7).toNat + 128 * (bitAt v 8).toNat := by
  simp only [magnitude_eq_powers, two_mul_toNat_pow_succ, pow_zero]
  rfl

theorem magnitude_odd (v : Lfsr) : magnitude v % 2 = 1 := by
  rw [magnitude_eq_weights]
  omega

/-! The byte `m` of the gate form. -/

theorem keyByte_eq_concat (v : Lfsr) :
    keyByte v = (((((((BitVec.ofBool (bitAt v 8)).concat (bitAt v 7)).concat (bitAt v 6)).concat (bitAt v 5)).concat
      (bitAt v 4)).concat (bitAt v 3)).concat (bitAt v 2)).concat true := rfl

theorem getLsbD_keyByte_zero (v : Lfsr) : (keyByte v).getLsbD 0 = true := by
  rw [keyByte_eq_concat, BitVec.getLsbD_concat_zero]

theorem getLsbD_keyByte_succ (v : Lfsr) {k : Nat} (hk : k < 7) : (keyByte v).getLsbD (k + 1) = bitAt v (k + 2) := by
  rw [keyByte_eq_concat, BitVec.getLsbD_concat_succ]
  interval_cases k <;> simp only [BitVec.getLsbD_concat_succ, BitVec.getLsbD_concat_zero,
    BitVec.getLsbD_ofBool, decide_true, Bool.true_and]

/-- The byte `m` is the magnitude (R75, R77). -/
theorem toNat_keyByte (v : Lfsr) : (keyByte v).toNat = magnitude v := by
  rw [magnitude_eq_weights, keyByte_eq_concat]
  simp only [BitVec.toNat_concat, BitVec.toNat_ofBool, Bool.toNat_true]
  omega

theorem magnitude_le (v : Lfsr) : magnitude v ≤ 255 := by
  have hlt := (keyByte v).isLt
  rw [toNat_keyByte] at hlt
  omega

/-! The key. -/

/-- The key is the residue itself, since a residue mod 255 fits a byte (R76). -/
theorem toNat_key (v : Lfsr) : ((key v).toNat : Int) = (sign v * (magnitude v : Int)) % 255 := by
  rw [key, BitVec.toNat_ofNat, keyModulus]
  omega

theorem toNat_key_le (v : Lfsr) : (key v).toNat ≤ 254 := by
  have hkey := toNat_key v
  omega

theorem key_ne_255 (v : Lfsr) : key v ≠ 255 := by
  have hle := toNat_key_le v
  intro h
  simp [h] at hle

/-- The rows of the table of R76. -/
theorem toNat_key_eq_table (v : Lfsr) :
    (key v).toNat = if magnitude v = 255 then 0 else if bitAt v 0 then 255 - magnitude v else magnitude v := by
  have hkey := toNat_key v
  have hodd := magnitude_odd v
  have hle := magnitude_le v
  by_cases hhead : bitAt v 0 = true
  · rw [sign, if_pos hhead] at hkey
    rw [if_pos hhead]
    split <;> omega
  · rw [sign, if_neg hhead] at hkey
    rw [if_neg hhead]
    split <;> omega

theorem key_of_head (hhead : bitAt v 0 = true) : key v = ~~~ keyByte v := by
  refine BitVec.eq_of_toNat_eq ?_
  rw [toNat_key_eq_table, if_pos hhead, BitVec.toNat_not, toNat_keyByte]
  split <;> omega

theorem keyByte_eq_ones_iff : keyByte v = 0xFF ↔ magnitude v = 255 := by
  rw [← toNat_keyByte, BitVec.toNat_eq]
  rfl

/-- The gate form gives the key (R77). -/
theorem key_eq_keyGate (v : Lfsr) : key v = keyGate v := by
  unfold keyGate
  split_ifs with hhead hm
  · exact key_of_head hhead
  · refine BitVec.eq_of_toNat_eq ?_
    rw [toNat_key_eq_table, if_pos (keyByte_eq_ones_iff.mp hm)]
    rfl
  · refine BitVec.eq_of_toNat_eq ?_
    rw [toNat_key_eq_table, if_neg (mt keyByte_eq_ones_iff.mpr hm), if_neg hhead, toNat_keyByte]

end Sys2Proof.Machine
end

section
/-!
SUPPORT. Which states have the same key (R78): the head and the byte `m` give it, and `S[1]` does not.
-/

namespace Sys2Proof.Machine

variable {v u : Lfsr}

theorem keyByte_eq_iff : keyByte u = keyByte v ↔ ∀ k, k < 7 → bitAt u (k + 2) = bitAt v (k + 2) := by
  constructor
  · intro h k hk
    rw [← getLsbD_keyByte_succ u hk, h, getLsbD_keyByte_succ v hk]
  · intro h
    refine BitVec.eq_of_getLsbD_eq fun k hk => ?_
    cases k with
    | zero => rw [getLsbD_keyByte_zero, getLsbD_keyByte_zero]
    | succ k =>
      have hk' : k < 7 := Nat.lt_of_succ_lt_succ hk
      rw [getLsbD_keyByte_succ u hk', getLsbD_keyByte_succ v hk', h k hk']

/-- `m` holds all bits of a state but the first two. -/
theorem eq_of_keyByte_eq (h0 : bitAt u 0 = bitAt v 0) (h1 : bitAt u 1 = bitAt v 1) (hm : keyByte u = keyByte v) : u = v :=
  eq_of_bitAt_eq fun k hk =>
    match k with
    | 0 => h0
    | 1 => h1
    | k + 2 => keyByte_eq_iff.mp hm k (by omega)

/-! `0x080` is the state with `S[1]` alone. -/

theorem bitAt_xor_080 (v : Lfsr) {k : Nat} (hk : k < 9) : bitAt (v ^^^ 0x080) k = (bitAt v k ^^ decide (k = 1)) := by
  have hmask : ∀ k, k < 9 → bitAt 0x080 k = decide (k = 1) := by decide
  rw [bitAt_xor, hmask k hk]

theorem bitAt_xor_080_zero (v : Lfsr) : bitAt (v ^^^ 0x080) 0 = bitAt v 0 := by
  rw [bitAt_xor_080 v (by decide), decide_eq_false nofun, Bool.xor_false]

theorem keyByte_xor_080 (v : Lfsr) : keyByte (v ^^^ 0x080) = keyByte v :=
  keyByte_eq_iff.mpr fun k hk => by
    rw [bitAt_xor_080 v (by omega)]
    simp

theorem key_xor_080 (v : Lfsr) : key (v ^^^ 0x080) = key v := by
  rw [key_eq_keyGate, key_eq_keyGate, keyGate, keyGate, keyByte_xor_080, bitAt_xor_080_zero]

/-! Parity and zeros. -/

theorem toNat_key_odd_or_zero (hhead : bitAt v 0 = false) : (key v).toNat % 2 = 1 ∨ key v = 0 := by
  have hodd := magnitude_odd v
  rw [BitVec.toNat_eq, toNat_key_eq_table, hhead]
  split
  · exact .inr rfl
  · exact .inl hodd

theorem toNat_key_even (hhead : bitAt v 0 = true) : (key v).toNat % 2 = 0 := by
  have hodd := magnitude_odd v
  rw [toNat_key_eq_table, if_pos hhead]
  split <;> omega

theorem key_eq_zero_iff_keyByte : key v = 0 ↔ keyByte v = 0xFF := by
  have hodd := magnitude_odd v
  have hle := magnitude_le v
  rw [keyByte_eq_ones_iff, BitVec.toNat_eq, toNat_key_eq_table]
  split_ifs with hm
  · exact iff_of_true rfl hm
  · exact iff_of_false (by show 255 - magnitude v ≠ 0; omega) hm
  · exact iff_of_false (by show magnitude v ≠ 0; omega) hm

theorem key_eq_zero_iff : key v = 0 ↔ v = 0x07F ∨ v = 0x0FF ∨ v = 0x17F ∨ v = 0x1FF := by
  rw [key_eq_zero_iff_keyByte]
  constructor
  · intro hm
    cases h0 : bitAt v 0 <;> cases h1 : bitAt v 1
    · exact .inl (eq_of_keyByte_eq h0 h1 hm)
    · exact .inr (.inl (eq_of_keyByte_eq h0 h1 hm))
    · exact .inr (.inr (.inl (eq_of_keyByte_eq h0 h1 hm)))
    · exact .inr (.inr (.inr (eq_of_keyByte_eq h0 h1 hm)))
  · rintro (rfl | rfl | rfl | rfl) <;> rfl

/-- A key other than 0 tells the head, by its parity, and then `m`. -/
theorem head_eq_and_keyByte_eq (hne : key v ≠ 0) (h : key u = key v) :
    bitAt u 0 = bitAt v 0 ∧ keyByte u = keyByte v := by
  have hhead : bitAt u 0 = bitAt v 0 := by
    cases hu : bitAt u 0 <;> cases hv : bitAt v 0
    · rfl
    · have hodd := (toNat_key_odd_or_zero hu).resolve_right (h ▸ hne)
      have heven := toNat_key_even hv
      rw [h] at hodd
      omega
    · have hodd := (toNat_key_odd_or_zero hv).resolve_right hne
      have heven := toNat_key_even hu
      rw [h] at heven
      omega
    · rfl
  refine ⟨hhead, ?_⟩
  have hmv := mt key_eq_zero_iff_keyByte.mpr hne
  have hmu := mt key_eq_zero_iff_keyByte.mpr (h ▸ hne)
  rw [key_eq_keyGate, key_eq_keyGate, keyGate, keyGate, hhead, if_neg hmv, if_neg hmu] at h
  split at h
  · exact BitVec.not_inj.mp h
  · exact h

theorem key_eq_key_iff (hne : key v ≠ 0) : key u = key v ↔ u = v ∨ u = v ^^^ 0x080 := by
  constructor
  · intro h
    obtain ⟨h0, hm⟩ := head_eq_and_keyByte_eq hne h
    by_cases h1 : bitAt u 1 = bitAt v 1
    · exact .inl (eq_of_keyByte_eq h0 h1 hm)
    · refine .inr (eq_of_keyByte_eq (h0.trans (bitAt_xor_080_zero v).symm) ?_ (hm.trans (keyByte_xor_080 v).symm))
      rw [bitAt_xor_080 v (by decide), decide_eq_true rfl, Bool.xor_true]
      exact Bool.eq_not.mpr h1
  · rintro (rfl | rfl)
    · rfl
    · exact key_xor_080 v

/-! Every byte but 255 is the key of a state. -/

/-- The state with a given head and a given byte `m`, and `S[1] = 0`. -/
def stateWith (head : Bool) (m : Byte) : Lfsr :=
  ofDigits (head :: false :: (List.range 7).map fun k => m.getLsbD (k + 1))

theorem bitAt_stateWith_zero (head : Bool) (m : Byte) : bitAt (stateWith head m) 0 = head :=
  bitAt_ofDigits _ (by decide)

theorem keyByte_stateWith (head : Bool) {m : Byte} (hm : m.getLsbD 0 = true) : keyByte (stateWith head m) = m := by
  refine BitVec.eq_of_getLsbD_eq fun k hk => ?_
  cases k with
  | zero => rw [getLsbD_keyByte_zero, hm]
  | succ k =>
    have hk' : k < 7 := Nat.lt_of_succ_lt_succ hk
    rw [getLsbD_keyByte_succ _ hk', stateWith, bitAt_ofDigits _ (by omega)]
    simp [hk']

theorem exists_key_eq {b : Byte} (hb : b ≠ 255) : ∃ v, key v = b := by
  cases hodd : b.getLsbD 0 with
  | true =>
    refine ⟨stateWith false b, ?_⟩
    rw [key_eq_keyGate, keyGate, bitAt_stateWith_zero, keyByte_stateWith false hodd, if_neg Bool.false_ne_true, if_neg hb]
  | false =>
    have hm : (~~~ b).getLsbD 0 = true := by simpa using hodd
    exact ⟨stateWith true (~~~ b), by rw [key_of_head (bitAt_stateWith_zero ..), keyByte_stateWith true hm, BitVec.not_not]⟩

/-- The tail carries the largest weight, so the key of a seed is at least 128 (R61). -/
theorem le_toNat_key_seedBits {i : Byte} (hi : i ≠ 0) : 128 ≤ (key (seedBits i)).toNat := by
  have htail : (keyByte (seedBits i)).msb = false := (getLsbD_keyByte_succ _ (by decide)).trans (bitAt_seedBits_tail i)
  have hm := BitVec.msb_eq_false_iff_two_mul_lt.mp htail
  rw [toNat_keyByte] at hm
  rw [toNat_key_eq_table, if_pos (bitAt_seedBits_head hi)]
  split <;> omega

end Sys2Proof.Machine
end

section
/-!
PROOF. The key and the byte it encrypts (R75, R76, R77, R78, R79).
-/

namespace Sys2Proof.Machine

/-- Settles O13: the terms of the sum are bits with their weights. -/
theorem signAndMagnitude : Obligations.SignAndMagnitude := by
  refine fun v => ⟨?_, magnitude_eq_powers v, magnitude_eq_weights v, magnitude_odd v, magnitude_le v⟩
  cases hhead : bitAt v 0 <;> simp [sign, hhead]

/-- Settles O14: the residue, its table, and a key that `S[1]` does not change. -/
theorem keyIsResidueMod255 : Obligations.KeyIsResidueMod255 :=
  ⟨fun v => ⟨toNat_key v, toNat_key_le v, toNat_key_eq_table v, key_xor_080 v⟩, by decide⟩

/-- Settles O15: the bits of `m`, and the three cases of the gate form. -/
theorem keyGateForm : Obligations.KeyGateForm :=
  fun v => ⟨fun _ hk => getLsbD_keyByte_succ v hk, getLsbD_keyByte_zero v, key_eq_keyGate v⟩

/-- Settles O16: the head gives the parity, and the head and `m` give the state but for `S[1]`. -/
theorem keyRangeAndAliasing : Obligations.KeyRangeAndAliasing :=
  ⟨fun _ => ⟨fun ⟨v, hv⟩ => hv ▸ key_ne_255 v, exists_key_eq⟩, fun _ => toNat_key_odd_or_zero, fun _ => toNat_key_even,
    fun _ => key_eq_zero_iff, fun _ _ => key_eq_key_iff,
    fun _ hi => ⟨toNat_key_even (bitAt_seedBits_head hi), le_toNat_key_seedBits hi⟩⟩

/-- Settles O22: the acceptance of ENCB, its word, and a key that is never 255. -/
theorem encbPushesXorOfKey : Obligations.EncbPushesXorOfKey := by
  refine ⟨fun p s v hs hv hc => ?_, fun p s hs => requireSeeded_of_not_seeded hs, encode_encb, fun p v hk => ?_,
    fun p v h => ?_, by decide⟩
  · rw [exec, execEncb, requireSeeded_of_seeded hs, readLfsr_of_some hv, State.whenConsumerReady, if_pos hc]
    rfl
  · rw [hk]
    exact BitVec.xor_zero
  · rw [← BitVec.xor_allOnes] at h
    exact key_ne_255 v ((BitVec.xor_right_inj p).mp h)

end Sys2Proof.Machine
end

section
/-!
SUPPORT. Which transition a step of `STEPS` is while steps are owed (R99).
-/

namespace Sys2Proof.Machine

theorem step_of_counted {s : State} {v : Lfsr} (hr : s.rst = false) (hp : s.ph = .steps) (hn : s.cnt ≠ 0)
    (hv : s.lfsr = some v) : step s = .next ((s.setLfsr (lfsrStep v)).setCnt (s.cnt - 1)) := by
  rw [step_steps hr hp, stepOrLeave, if_pos hn, readLfsr_of_some hv]

end Sys2Proof.Machine
end

section
/-!
PROOF. The transitions of the sequencer's phases, one statement for each (R97 to R101).
-/

namespace Sys2Proof.Machine

/-- Settles O31: a step in `HALT` answers the same state, and so do any number of them. -/
theorem haltIsKept : Obligations.HaltIsKept :=
  fun _ n hr hp => runSteps_of_step_self (step_halt hr hp) n

/-- Settles O26: a zero is only drawn, another byte is drawn and loaded. -/
theorem seedDrawTransition : Obligations.SeedDrawTransition := by
  intro s r hr hp hd
  by_cases h0 : r = 0
  · rw [if_pos h0]
    exact step_of_zero_drawn hr hp (h0 ▸ hd)
  · rw [if_neg h0]
    exact step_of_seed_drawn hr hp h0 hd

/-- Settles O27: `CNTW` is a draw and nothing else. -/
theorem countDrawTransition : Obligations.CountDrawTransition :=
  fun _ _ hr hp hd => (step_cntw hr hp).trans (whenRandomOffered_of_some hd)

/-- Settles O28: a step while steps are owed, and then the three ways out of `STEPS`. -/
theorem stepsTransition : Obligations.StepsTransition := by
  refine fun s hr hp => ⟨fun _ => step_of_counted hr hp, fun hn => ?_⟩
  split
  · next hm => exact step_of_adv_done hr hp hn hm
  · next hm =>
    have hm : s.runm = true := Bool.eq_true_of_not_eq_false hm
    split
    · next hlt => exact step_of_next_byte hr hp hn hm hlt
    · next hge => exact step_of_run_done hr hp hn hm (Nat.le_of_not_lt hge)

/-- Settles O29: with a byte to read and a consumer to take it, `ENC` makes its one push. -/
theorem encryptTransition : Obligations.EncryptTransition :=
  fun _ _ _ hr hp hv hb hc => step_of_encrypt hr hp hb hv hc

end Sys2Proof.Machine
end

section
/-!
SUPPORT. A transition keeps the state exactly when the core waits (R101, R117). Every other one is a reset, or moves a
channel, or is a transition of `STEPS`, which writes `CNT` or `PH`.
-/

namespace Sys2Proof.Machine

variable {s t : State}

theorem waiting_eq_false_of_reset (hr : s.rst = true) : s.waiting = false := by
  simp [State.waiting, hr]

theorem waiting_eq_false_of_steps (hp : s.ph = .steps) : s.waiting = false := by
  simp [State.waiting, hp]

theorem not_reset_of_waiting (hw : s.waiting = true) : s.rst = false :=
  Bool.eq_false_iff.mpr fun hr => Bool.false_ne_true ((waiting_eq_false_of_reset hr).symm.trans hw)

/-- A core that waits has nothing to transfer, so no channel moves (R55, R117). -/
theorem Transition.channels_eq_of_waiting (h : Transition s t) (hw : s.waiting = true) :
    t.cmd = s.cmd ∧ t.rp = s.rp ∧ t.ct = s.ct := by
  obtain ⟨hcmd, hrnd, hct⟩ := no_transfer_of_waiting hw
  exact ⟨by rw [h.cmd_eq (not_reset_of_waiting hw), hcmd]; rfl, by rw [h.rp_eq, hrnd]; rfl, by rw [h.ct_eq, hct]; rfl⟩

theorem Transition.eq_self_iff_waiting_of_channel (h : Transition s t)
    (hmoved : t.cmd ≠ s.cmd ∨ t.rp ≠ s.rp ∨ t.ct ≠ s.ct) : t = s ↔ s.waiting = true := by
  refine iff_of_false (fun heq => ?_) (fun hw => ?_)
  · simp [heq] at hmoved
  · obtain ⟨hcmd, hrp, hct⟩ := h.channels_eq_of_waiting hw
    simp [hcmd, hrp, hct] at hmoved

/-- An offered word is on the port, and its acceptance takes it off (R31). -/
theorem tail_cmd_ne_of_decoded {d : Decoded} (h : s.offeredCommand.map decode = some d) : s.cmd.tail ≠ s.cmd := by
  obtain ⟨w, -, hcmd⟩ := exists_cmd_eq_cons_of_decoded h
  rw [hcmd]
  exact (List.cons_ne_self w _).symm

theorem Transition.eq_self_iff_waiting (h : Transition s t) : t = s ↔ s.waiting = true := by
  have hchannel := h.eq_self_iff_waiting_of_channel
  have hsteps (hp : s.ph = .steps) (hne : t ≠ s) : t = s ↔ s.waiting = true :=
    iff_of_false hne (by simp [waiting_eq_false_of_steps hp])
  cases h with
  | reset hr =>
    refine iff_of_false (fun heq => ?_) (by simp [waiting_eq_false_of_reset hr])
    exact Bool.false_ne_true ((congrArg State.rst heq).trans hr)
  | wait hw => exact iff_of_true rfl hw
  | reservedFault _ _ _ hd => exact hchannel (.inl (tail_cmd_ne_of_decoded hd))
  | unseededFault _ ho | initLoad _ _ ho | initUnset ho | stepCommand _ ho | advCommand ho | encbCommand _ _ ho
  | runCommand ho =>
    obtain ⟨-, -, hd⟩ := ho
    exact hchannel (.inl (tail_cmd_ne_of_decoded hd))
  | zeroSeedDraw | seedDraw | countDraw => exact hchannel (.inr (.inl (Nat.succ_ne_self s.rp)))
  | encryptByte => exact hchannel (.inr (.inr (by simp)))
  | countedStep _ _ hp =>
    refine hsteps hp fun heq => ?_
    have hcnt : s.cnt - 1 = s.cnt := congrArg State.cnt heq
    bv_omega
  | endAdv _ hp | nextByte _ hp | endRun _ hp =>
    refine hsteps hp fun heq => ?_
    have hph := congrArg State.ph heq
    simp [hp] at hph

end Sys2Proof.Machine
end

section
/-!
PROOF. Progress (R101, R104, R117, R120).
-/

namespace Sys2Proof.Machine

/-- Settles O47: the invariant gives a next state, and the transition to it keeps the state exactly in a wait. -/
theorem progressUnlessWaiting : Obligations.ProgressUnlessWaiting := by
  intro s hi
  obtain ⟨t, ht⟩ := step_exists_next hi
  rw [ht, Host.Outcome.next.injEq]
  exact (transition_of_step ht).eq_self_iff_waiting

end Sys2Proof.Machine
end

section
/-!
SUPPORT. RUN written out as single commands (R102): one byte, and the loop over the plaintext.
-/

namespace Sys2Proof.Machine

variable {s : State} {v : Lfsr} {b p : Byte} {bs ps : List Byte} {ws : List CmdWord}

/-- The part of `runAsCommands` that encrypts the bytes `ps`. -/
def byteCommands (ps : List Byte) : List CmdWord := (ps.flatMap fun p => [.encb p, .adv]).map encode

theorem runAsCommands_eq (ps : List Byte) :
    runAsCommands ps = encode (.init 0) :: encode .adv :: byteCommands ps := rfl

theorem byteCommands_cons (p : Byte) (ps : List Byte) :
    byteCommands (p :: ps) = encode (.encb p) :: encode .adv :: byteCommands ps := rfl

theorem offered_of_cmd_eq {i : Instr} (hr : s.rst = false) (hp : s.ph = .idle) (hcmd : s.cmd = encode i :: ws) :
    s.Offered i := by
  refine ⟨hr, hp, ?_⟩
  rw [State.offeredCommand, hcmd, List.head?_cons, Option.map_some, decode_eq_command_iff_encode_eq.mpr rfl]

/-- The core is idle between two single commands, seeded with `S = v`, and the consumer takes what it pushes. -/
structure BetweenCommands (s : State) (v : Lfsr) : Prop where
  noReset : s.rst = false
  ready : s.ctReady = true
  ph : s.ph = .idle
  runm : s.runm = false
  seeded : s.seeded = true
  lfsr : s.lfsr = some v

theorem BetweenCommands.emitted (hs : BetweenCommands s v) (x : Byte) :
    BetweenCommands (s.consumeCommand.emit x) v := { hs with }

theorem BetweenCommands.advanced (hs : BetweenCommands s v) (b : Byte) :
    BetweenCommands (s.consumeCommand.advanced v b) (stepN v b.toNat) := { hs with lfsr := rfl }

theorem BetweenCommands.step_encb (hs : BetweenCommands s v) (hcmd : s.cmd = encode (.encb p) :: ws) :
    step s = .next (s.consumeCommand.emit (encrypted p v)) := by
  obtain ⟨hencb, -⟩ := encbPushesXorOfKey
  rw [step_of_offered (offered_of_cmd_eq hs.noReset hs.ph hcmd), hencb p s v hs.seeded hs.lfsr hs.ready, ← hs.ph]
  rfl

theorem BetweenCommands.runSteps_adv (hs : BetweenCommands s v) (hcmd : s.cmd = encode .adv :: ws)
    (hd : s.offeredRandom = some b) : runSteps (b.toNat + 3) s = .next (s.consumeCommand.advanced v b) := by
  obtain ⟨hadv, -⟩ := advTakesDrawnNumberOfSteps
  exact hadv s v b (offered_of_cmd_eq hs.noReset hs.ph hcmd) hs.runm hs.seeded hs.lfsr hd

/-- The state `s` with every command accepted and `IDX` at `i`. -/
def State.atEndOfCommands (s : State) (i : Nat) : State := { s with cmd := [], idx := i }

/-- The commands for the bytes do what the loop of a RUN does, but leave `IDX` as it is. -/
theorem BetweenCommands.runSteps_bytes (hs : BetweenCommands s v) (hn : s.cnt = 0) (hcmd : s.cmd = byteCommands ps)
    (hlen : bs.length = ps.length) (htape : bs <+: s.tapeAhead) :
    ∃ m, runSteps m s = .next ((s.afterBytes v bs ps).atEndOfCommands s.idx) := by
  induction ps generalizing s v bs with
  | nil =>
    obtain rfl := List.eq_nil_of_length_eq_zero hlen
    have hdone : s.cmd = [] := hcmd
    refine ⟨0, ?_⟩
    rw [State.afterBytes_nil hs.lfsr hn, State.atEndOfCommands, ← hdone]
    rfl
  | cons p ps ih =>
    obtain ⟨b, bs, rfl⟩ := List.exists_cons_of_length_eq_add_one hlen
    obtain ⟨rest, hrest⟩ := htape
    rw [byteCommands_cons] at hcmd
    have hd : s.offeredRandom = some b := by rw [offeredRandom_eq_head?, ← hrest]; rfl
    have hencb := hs.step_encb hcmd
    have hpushed := hs.emitted (encrypted p v)
    have hcmd' : s.cmd.tail = encode .adv :: byteCommands ps := congrArg List.tail hcmd
    have hadv := hpushed.runSteps_adv (b := b) hcmd' hd
    have htape' : bs ++ rest = s.consumeRandom.tapeAhead := by rw [consumeRandom_tapeAhead, ← hrest]; rfl
    obtain ⟨m, hloop⟩ := ih (hpushed.advanced b) rfl (congrArg List.tail hcmd') (Nat.succ.inj hlen) ⟨rest, htape'⟩
    refine ⟨_, (runSteps_succ_of_next _ hencb).trans ((runSteps_add m hadv).trans ?_)⟩
    rw [hloop, State.afterBytes_cons]
    rfl

end Sys2Proof.Machine
end

section
/-!
SUPPORT. The whole of RUN as single commands: `INITR`, the burn, and the loop over the plaintext (R102).
-/

namespace Sys2Proof.Machine

variable {s : State} {j : Nat} {v b0 : Byte} {bs : List Byte}

/-- What `INIT 0` leaves of an idle core, after `j` zeros and the seed byte `v` (R62, R63). -/
def State.initSeeded (s : State) (j : Nat) (v : Byte) : State :=
  ({ s.consumeCommand with rp := s.rp + (j + 1) } : State).seedLoad v

theorem runSteps_initSeeded (ho : s.Offered (.init 0)) (hm : s.runm = false) (hv : v ≠ 0)
    (htape : List.replicate j 0 ++ [v] <+: s.tapeAhead) : runSteps (j + 2) s = .next (s.initSeeded j v) := by
  obtain ⟨hinit, -⟩ := initUnsetRedrawsUntilNonzero
  exact hinit s j v ho hm hv htape

/-- `INIT 0` reads the tape as the seed draw of a RUN does. -/
theorem tapeAhead_initSeeded {tape : List Byte} (htape : List.replicate j 0 ++ v :: tape = s.tapeAhead) :
    (s.initSeeded j v).tapeAhead = tape :=
  tapeAhead_runSeeded htape

theorem runSteps_runAsCommands (hr : s.rst = false) (hp : s.ph = .idle) (hm : s.runm = false) (hc : s.ctReady = true)
    (htape : s.TapeForRun j v b0 bs) (hcmd : s.cmd = runAsCommands s.pt) :
    ∃ m, runSteps m s = .next
      ((((s.initSeeded j v).consumeCommand.advanced (seedBits v) b0).afterBytes (stepN (seedBits v) b0.toNat) bs
        s.pt).atEndOfCommands s.idx) := by
  obtain ⟨hv, hlen, rest, htape⟩ := htape
  rw [runAsCommands_eq] at hcmd
  have hinit := runSteps_initSeeded (j := j) (offered_of_cmd_eq hr hp hcmd) hm hv
    ⟨b0 :: (bs ++ rest), by simp [← htape]⟩
  have hseeded : BetweenCommands (s.initSeeded j v) (seedBits v) := ⟨hr, hc, hp, hm, rfl, rfl⟩
  have hahead : (s.initSeeded j v).tapeAhead = b0 :: (bs ++ rest) := tapeAhead_initSeeded (by simp [← htape])
  have hcmd' : (s.initSeeded j v).cmd = encode .adv :: byteCommands s.pt := congrArg List.tail hcmd
  have hburn := hseeded.runSteps_adv hcmd' (b := b0) (by rw [offeredRandom_eq_head?, hahead]; rfl)
  have hcounts : bs ++ rest = (s.initSeeded j v).consumeRandom.tapeAhead := by rw [consumeRandom_tapeAhead, hahead]; rfl
  obtain ⟨m, hloop⟩ := (hseeded.advanced b0).runSteps_bytes rfl (congrArg List.tail hcmd') hlen ⟨rest, hcounts⟩
  exact ⟨_, (runSteps_add _ hinit).trans ((runSteps_add m hburn).trans hloop)⟩

end Sys2Proof.Machine
end

section
/-!
PROOF. RUN and the same procedure as single commands (R102, program P7).
-/

namespace Sys2Proof.Machine

/-- Settles O55: the RUN ends as its closed form says, and so do the single commands, which leave `IDX` as it was. -/
theorem runEqualsSingleCommands : Obligations.RunEqualsSingleCommands := by
  intro s j v b0 bs hr hp hm hc htape
  have ho : ({ s with cmd := [encode .run] } : State).Offered .run := offered_of_cmd_eq hr hp rfl
  obtain ⟨n, -, hrun⟩ := runEncryptsWholePlaintext _ j v b0 bs ho hc htape
  obtain ⟨m, hcommands⟩ := runSteps_runAsCommands (s := { s with cmd := runAsCommands s.pt }) hr hp hm hc htape rfl
  refine ⟨n, m, _, hrun, hp, rfl, by simp, hcommands.trans ?_⟩
  rw [ciphertextOf_burnt, stepN_add, ← hm, ← Nat.add_assoc, ← Nat.add_assoc]
  rfl

end Sys2Proof.Machine
end

section
/-!
SUPPORT. When a fault is due, that the step then takes it, and that no other transition sets `ERR` (R110 to R113).
-/

namespace Sys2Proof.Machine

variable {s t : State} {c : Cause}

/-- The fault `c` is due: an idle core accepts a reserved word, or a command that needs the seed it does not have (R110). -/
inductive FaultDue (s : State) : Cause → Prop where
  | reserved (why : Reserved) (hr : s.rst = false) (hp : s.ph = .idle)
      (hd : s.offeredCommand.map decode = some (.reserved why)) : FaultDue s .reservedCommand
  | unseeded (i : Instr) (ho : s.Offered i) (hi : i = .step ∨ i = .adv ∨ ∃ p, i = .encb p) (hs : s.seeded = false) :
      FaultDue s .notSeeded

/-- A fault that is due is taken, whether or not the ciphertext consumer is ready (R112, R113). -/
theorem FaultDue.step_eq (h : FaultDue s c) : step s = .next (s.consumeCommand.raiseFault c) := by
  cases h with
  | reserved why hr hp hd =>
    obtain ⟨w, hw, hd⟩ := Option.map_eq_some_iff.mp hd
    exact step_of_reserved hr hp hw hd
  | unseeded i ho hi hs =>
    rw [step_of_offered ho]
    obtain rfl | rfl | ⟨p, rfl⟩ := hi <;> exact requireSeeded_of_not_seeded hs

/-- Of the transitions only the two faults set `ERR`. -/
theorem Transition.faultDue (h : Transition s t) (hs : s.err = false) (ht : t.err = true) :
    ∃ c, FaultDue s c ∧ t = s.consumeCommand.raiseFault c := by
  cases h with
  | reset => cases ht
  | reservedFault why hr hp hd => exact ⟨_, .reserved why hr hp hd, rfl⟩
  | unseededFault i ho hi hs => exact ⟨_, .unseeded i ho hi hs, rfl⟩
  | _ => exact absurd (hs.symm.trans ht) Bool.false_ne_true

theorem err_iff_exists_faultDue (hs : s.err = false) (h : step s = .next t) : t.err = true ↔ ∃ c, FaultDue s c := by
  constructor
  · intro ht
    obtain ⟨c, hc, -⟩ := (transition_of_step h).faultDue hs ht
    exact ⟨c, hc⟩
  · rintro ⟨c, hc⟩
    cases hc.step_eq.symm.trans h
    rfl

theorem exists_faultDue_iff :
    (∃ c, FaultDue s c) ↔
      s.rst = false ∧ s.ph = .idle ∧
        ((∃ why, s.offeredCommand.map decode = some (.reserved why)) ∨
          s.seeded = false ∧ ∃ i, s.offeredCommand.map decode = some (.command i) ∧
            (i = .step ∨ i = .adv ∨ ∃ p, i = .encb p)) := by
  constructor
  · rintro ⟨_, ⟨why, hr, hp, hd⟩ | ⟨i, ⟨hr, hp, hd⟩, hi, hs⟩⟩
    · exact ⟨hr, hp, .inl ⟨why, hd⟩⟩
    · exact ⟨hr, hp, .inr ⟨hs, i, hd, hi⟩⟩
  · rintro ⟨hr, hp, ⟨why, hd⟩ | ⟨hs, i, hd, hi⟩⟩
    · exact ⟨_, .reserved why hr hp hd⟩
    · exact ⟨_, .unseeded i ⟨hr, hp, hd⟩ hi hs⟩

end Sys2Proof.Machine
end

section
/-!
PROOF. The two faults (R110 to R113).
-/

namespace Sys2Proof.Machine

/-- Settles O33: `ERR` is set exactly when a fault is due, and a word decodes in one way, so the cause is that fault's. -/
theorem onlyTwoFaults : Obligations.OnlyTwoFaults := by
  intro s t hs h
  refine ⟨(err_iff_exists_faultDue hs h).trans exists_faultDue_iff, fun ht => ?_⟩
  obtain ⟨c, hc, rfl⟩ := (transition_of_step h).faultDue hs ht
  cases hc with
  | reserved why _ _ hd => exact ⟨fun _ _ => rfl, fun i hi => by simp [hd] at hi⟩
  | unseeded i ho =>
    obtain ⟨-, -, hd⟩ := ho
    exact ⟨fun why hwhy => by simp [hd] at hwhy, fun _ _ => rfl⟩

/-- Settles O34: the step is the taking of the fault that is due, whose writes are the ones stated. -/
theorem faultsArePrecise : Obligations.FaultsArePrecise := by
  intro s t hs h ht
  obtain ⟨c, hc, rfl⟩ := (transition_of_step h).faultDue hs ht
  refine ⟨rfl, ?_⟩
  cases hc with
  | reserved why _ _ hd => exact .inl ⟨why, hd, rfl⟩
  | unseeded i ho =>
    obtain ⟨-, -, hd⟩ := ho
    exact .inr ⟨i, hd, rfl⟩

end Sys2Proof.Machine
end

section
/-!
SUPPORT. The induction over the steps of a run.
-/

namespace Sys2Proof.Machine

variable {s t : State}

/-- What every step keeps, a run of any number of steps keeps. -/
theorem runSteps_keeps {P : State → Prop} (hstep : ∀ s t, P s → step s = .next t → P t) {n : Nat} (hs : P s)
    (hrun : runSteps n s = .next t) : P t := by
  induction n generalizing s with
  | zero =>
    cases hrun
    exact hs
  | succ n ih =>
    obtain ⟨u, hu, hrun⟩ := runSteps_succ_next hrun
    exact ih (hstep s u hs hu) hrun

end Sys2Proof.Machine
end

section
/-!
SUPPORT. Sequences of words that cannot fault (R119), word by word, and that the core keeps such a sequence ahead of it.
-/

namespace Sys2Proof.Machine

variable {s t : State} {i : Instr} {w : CmdWord} {ws : List CmdWord} {b : Bool}

/-- The commands that give the core a seed: INIT and RUN. -/
def seedsCore : Instr → Bool
  | .init _ => true
  | .step => false
  | .adv => false
  | .encb _ => false
  | .run => true

theorem safeSequence_cons_of_reserved {why : Reserved} (hd : decode w = .reserved why) :
    safeSequence b (w :: ws) = false := by
  simp [safeSequence, hd]

/-- A command is safe on a core that has a seed or gets one from it, and the core has a seed after it. -/
theorem safeSequence_cons_of_command (hd : decode w = .command i) :
    safeSequence b (w :: ws) = ((b || seedsCore i) && safeSequence true ws) := by
  cases i <;> cases b <;> simp [safeSequence, hd, seedsCore]

/-- The words of RUN and INIT are commands that seed. -/
theorem exists_decode_of_seedingWord (h : seedingWord w = true) : ∃ i, decode w = .command i ∧ seedsCore i = true := by
  rw [seedingWord, Bool.or_eq_true, beq_iff_eq, decide_eq_true_iff] at h
  obtain rfl | h := h
  · exact ⟨.run, rfl, rfl⟩
  · have hop : (fieldsOf w).op = 0 := by
      have hw := toNat_eq_fields w
      bv_omega
    exact ⟨.init (fieldsOf w).imm, decode_eq_command_iff.mpr (congrArg (CommandFields.mk · _) hop), rfl⟩

theorem safeSequence_of_all_seedingWord (h : ws.all seedingWord = true) : safeSequence b ws = true := by
  induction ws generalizing b with
  | nil => rfl
  | cons w ws ih =>
    rw [List.all_cons, Bool.and_eq_true] at h
    obtain ⟨hw, hws⟩ := h
    obtain ⟨i, hd, hi⟩ := exists_decode_of_seedingWord hw
    rw [safeSequence_cons_of_command hd, hi, Bool.or_true, ih hws]
    rfl

/-- The core is seeded, or is drawing its seed. -/
def State.seedAhead (s : State) : Bool := s.seeded || decide (s.ph = .seedw)

/-- The core has taken no fault, and the offered words give it no reason to take one. -/
structure SafeAhead (s : State) : Prop where
  noReset : s.rst = false
  noFault : s.err = false
  safe : safeSequence s.seedAhead s.cmd = true

theorem seedAhead_of_seeded (hs : s.seeded = true) : s.seedAhead = true := by
  simp [State.seedAhead, hs]

theorem seedAhead_of_seedw (hp : s.ph = .seedw) : s.seedAhead = true := by
  simp [State.seedAhead, hp]

theorem seedAhead_of_ne_seedw (hp : s.ph ≠ .seedw) : s.seedAhead = s.seeded := by
  simp [State.seedAhead, hp]

theorem SafeAhead.not_reserved (h : SafeAhead s) {why : Reserved} :
    s.offeredCommand.map decode ≠ some (.reserved why) := by
  intro hd
  obtain ⟨w, hw, hcmd⟩ := exists_cmd_eq_cons_of_decoded hd
  rw [hw, Option.map_some, Option.some_inj] at hd
  have hsafe := h.safe
  rw [hcmd, safeSequence_cons_of_reserved hd] at hsafe
  cases hsafe

/-- A word offered to an idle core is a command that finds a seed or brings one, and with a seed the rest is safe. -/
theorem SafeAhead.of_offered (h : SafeAhead s) (ho : s.Offered i) :
    (s.seeded || seedsCore i) = true ∧ safeSequence true s.cmd.tail = true := by
  obtain ⟨-, hp, hd⟩ := ho
  obtain ⟨w, hw, hcmd⟩ := exists_cmd_eq_cons_of_decoded hd
  rw [hw, Option.map_some, Option.some_inj] at hd
  have hsafe := h.safe
  rwa [hcmd, safeSequence_cons_of_command hd, Bool.and_eq_true, seedAhead_of_ne_seedw (by simp [hp])] at hsafe

/-- No fault is due on such a core. -/
theorem SafeAhead.not_faultDue (h : SafeAhead s) {c : Cause} : ¬ FaultDue s c := by
  rintro (⟨why, -, -, hd⟩ | ⟨i, ho, hi, hs⟩)
  · exact h.not_reserved hd
  · obtain ⟨hseed, -⟩ := h.of_offered ho
    obtain rfl | rfl | ⟨p, rfl⟩ := hi <;> simp [hs, seedsCore] at hseed

theorem Transition.rst_eq_false (h : Transition s t) (hr : s.rst = false) : t.rst = false := by
  cases h with
  | reset => rfl
  | _ => exact hr

/-- An acceptance leaves a core that has its seed or draws it; any other transition keeps the words and does not lose a
seed that was ahead. -/
theorem Transition.safe (h : Transition s t) (hs : SafeAhead s) : safeSequence t.seedAhead t.cmd = true := by
  have haccept {i : Instr} (ho : s.Offered i) (hcmd : t.cmd = s.cmd.tail) (hseed : t.seedAhead = true) :
      safeSequence t.seedAhead t.cmd = true := by
    obtain ⟨-, htail⟩ := hs.of_offered ho
    rwa [hcmd, hseed]
  have hkeep (hcmd : t.cmd = s.cmd) (hseed : t.seedAhead = s.seedAhead) : safeSequence t.seedAhead t.cmd = true := by
    rw [hcmd, hseed]
    exact hs.safe
  cases h with
  | reset hr => exact absurd (hs.noReset.symm.trans hr) Bool.false_ne_true
  | wait | zeroSeedDraw | countedStep => exact hs.safe
  | reservedFault _ _ _ hd => exact absurd hd hs.not_reserved
  | unseededFault i ho hi hseed => exact absurd (.unseeded i ho hi hseed) hs.not_faultDue
  | initLoad _ _ ho => exact haccept ho rfl (seedAhead_of_seeded rfl)
  | stepCommand _ ho hseed | advCommand ho hseed | encbCommand _ _ ho hseed =>
    exact haccept ho rfl (seedAhead_of_seeded hseed)
  | initUnset ho | runCommand ho => exact haccept ho rfl (seedAhead_of_seedw rfl)
  | seedDraw _ _ _ hp => exact hkeep rfl ((seedAhead_of_seeded rfl).trans (seedAhead_of_seedw hp).symm)
  | countDraw _ _ hp | endAdv _ hp | nextByte _ hp | endRun _ hp | encryptByte _ _ _ hp =>
    exact hkeep rfl (by simp [State.seedAhead, hp])

theorem SafeAhead.of_step (h : SafeAhead s) (hstep : step s = .next t) : SafeAhead t where
  noReset := (transition_of_step hstep).rst_eq_false h.noReset
  noFault := by
    rw [← Bool.not_eq_true, err_iff_exists_faultDue h.noFault hstep]
    exact fun ⟨_, hc⟩ => h.not_faultDue hc
  safe := (transition_of_step hstep).safe h

end Sys2Proof.Machine
end

section
/-!
PROOF. Sequences of words that never fault (R119).
-/

namespace Sys2Proof.Machine

/-- Settles O41: every step keeps the rest of the sequence safe and sets no `ERR`, and RUN and INIT each bring a seed. -/
theorem safeSequencesNeverFault : Obligations.SafeSequencesNeverFault :=
  ⟨fun _ _ _ hr he hsafe hrun => (runSteps_keeps (fun _ _ => SafeAhead.of_step) ⟨hr, he, hsafe⟩ hrun).noFault,
    fun _ _ => safeSequence_of_all_seedingWord⟩

end Sys2Proof.Machine
end

section
/-!
SUPPORT. What a push answers while the consumer is not ready (R117).
-/

namespace Sys2Proof.Machine

variable {s : State}

theorem whenConsumerReady_of_not_ready {u : State} (h : s.ctReady = false) : s.whenConsumerReady u = .next s := by
  simp [State.whenConsumerReady, h]

theorem encryptByte_of_not_ready (hi : s.idx < s.pt.length) (hv : s.lfsr ≠ none) (hc : s.ctReady = false) :
    encryptByte s = .next s := by
  have hp : s.ptRead s.idx = some s.pt[s.idx] := List.getElem?_eq_getElem hi
  obtain ⟨v, hv⟩ := Option.ne_none_iff_exists'.mp hv
  simp only [encryptByte, hp, readLfsr_of_some hv, whenConsumerReady_of_not_ready hc]

theorem execEncb_of_not_ready {p : Byte} (hs : s.seeded = true) (hv : s.lfsr ≠ none) (hc : s.ctReady = false) :
    execEncb p s = .next s := by
  obtain ⟨v, hv⟩ := Option.ne_none_iff_exists'.mp hv
  rw [execEncb, requireSeeded_of_seeded hs, readLfsr_of_some hv, whenConsumerReady_of_not_ready hc]

end Sys2Proof.Machine
end

section
/-!
PROOF. The waits (R117).
-/

namespace Sys2Proof.Machine

/-- Settles O30: each wait is the branch of a draw, of a push or of `IDLE` in which the other side of the channel is not
ready. -/
theorem waitsChangeNothing : Obligations.WaitsChangeNothing := by
  refine ⟨fun s hr hp hd => ?_, fun s hr hp hi hv hc => ?_, fun s p ho hs hv hc => ?_, fun s hr hp hd => ?_⟩
  · obtain hp | hp := hp
    · exact step_of_seedw_wait hr hp hd
    · exact (step_cntw hr hp).trans (whenRandomOffered_of_none hd)
  · exact (step_enc hr hp).trans (encryptByte_of_not_ready hi hv hc)
  · exact (step_of_offered ho).trans (execEncb_of_not_ready hs hv hc)
  · exact step_idle_of_cmd_nil hr hp (List.head?_eq_none_iff.mp hd)

end Sys2Proof.Machine
end

section
/-!
SUPPORT. The phase that a step keeps while no reset is asked for: `HALT`, and `SEEDW` on draws of zero (R97, R101).
-/

namespace Sys2Proof.Machine

variable {s t : State}

theorem ph_eq_halt_of_step (hr : s.rst = false) (hp : s.ph = .halt) (h : step s = .next t) : t.ph = .halt := by
  rw [step_halt hr hp] at h
  cases h
  exact hp

theorem ph_eq_seedw_of_step (hr : s.rst = false) (hp : s.ph = .seedw) (hzero : ∀ b, s.offeredRandom = some b → b = 0)
    (h : step s = .next t) : t.ph = .seedw := by
  rw [step_seedw hr hp] at h
  obtain ⟨-, rfl⟩ | ⟨r, h0, hd, -⟩ | ⟨-, rfl⟩ := seedDraw_next h
  · exact hp
  · exact absurd (hzero r hd) h0
  · exact hp

end Sys2Proof.Machine
end

section
/-!
PROOF. Reset in any phase (R126).
-/

namespace Sys2Proof.Machine

/-- Settles O18: a reset that is asked for is the whole step; without one, `HALT` and a redraw loop fed with zeros keep
their phase. -/
theorem resetInAnyPhase : Obligations.ResetInAnyPhase := by
  refine ⟨fun s hr => ?_, fun s t hp hstep hleft => ?_, fun s t hp hzero hstep hleft => ?_⟩
  · exact ⟨s.applyReset, step_reset hr, rfl, rfl, rfl, rfl, rfl, rfl, rfl, rfl, rfl, rfl, rfl⟩
  · exact Bool.of_not_eq_false fun hr => hleft (ph_eq_halt_of_step hr hp hstep)
  · exact Bool.of_not_eq_false fun hr => hleft (ph_eq_seedw_of_step hr hp hzero hstep)

end Sys2Proof.Machine
end
